-- ==== Sys2Proof/Word.lean ====
section
/-! DEFINITION. The words of the block and the plain names built from them: bytes and ticks (R5, R6), the
frame roles (R19), record indexes, the number domain of the readings as a configuration record (R5 `NUM`, R127), and the input events
and read ports of the interface (R130, R133). -/

namespace Sys2Proof

/-- `u8`, one input byte (R5 `BYTE_W`, R6). -/
abbrev Byte := BitVec 8

/-- One tick, an unsigned 16-bit count (R5 `TICK_W`). -/
abbrev Tick := BitVec 16

/-- The ESC identifier of a telemetry header, `u3` (R5 `ESC_ID_W`, R15). -/
abbrev EscId := BitVec 3

/-- The tick file: eleven ticks (R5 `N_ROLES`, R18). -/
abbrev Ticks := Vector Tick 11

/-- The index of a reading record, 0 or 1 (R5 `MAX_ESC`, R21). -/
abbrev RecIdx := Fin 2

/-- `N_ESC`, the number of reading records in use: 0, 1 or 2 (R20). -/
abbrev EscCount := Fin 3

/-- The carrier of the reference semantics of `NUM` (R5, R126): exact real numbers as plain data, a rational number or
an expression over rational numbers for the real functions of R118.  `Machine.denotes` (Machine/Exact.lean) says which
real number each is (log entries 3 and 4). -/
inductive Exact where
  /-- A rational number. -/
  | rat (q : Rat)
  /-- A natural logarithm. -/
  | ln (a : Exact)
  /-- A sum. -/
  | add (a b : Exact)
  /-- A difference. -/
  | sub (a b : Exact)
  /-- A product. -/
  | mul (a b : Exact)
  /-- A quotient. -/
  | div (a b : Exact)
  deriving DecidableEq, Repr, Inhabited

/-- The type that the machine of this package is configured with for `NUM`: the reference semantics.  The state and every
meaning are given for any other type as well (R127, D8, U4; log entry 3). -/
abbrev Num := Exact

/-- `NUM` as a configuration record: "a type, an embedding of the integers, the operations used in rule R126, `ln`, an
equality test and `ROUND`" (R127, D8, U4).  Nothing is assumed of them but that "each operation is a function of its
operands". -/
structure NumFormat (α : Type) where
  /-- The embedding of the integers. -/
  ofInt : Int → α
  /-- The value that the format gives to a decimal literal of the source (log entry 3). -/
  literal : Rat → α
  add : α → α → α
  sub : α → α → α
  mul : α → α → α
  div : α → α → α
  /-- The natural logarithm. -/
  ln : α → α
  /-- The comparison `>` of R117. -/
  gt : α → α → Bool
  /-- The equality test of R120; what it gives for a NaN, if the format has one, is the format's own (U4). -/
  eq : α → α → Bool
  /-- `ROUND`. -/
  round : α → Int

/-- All that a model takes as an argument where the spec leaves numbers open: the format, and the two open values of it,
each possibly another at each occurrence, which the argument counts (R127, U1, U2; log entries 3 and 5). -/
structure NumParams (α : Type) where
  /-- `NUM`. -/
  num : NumFormat α
  /-- `THERM_AT_ZERO` (R119, U1). -/
  thermAtZero : Nat → α
  /-- What a port shows of a `NUM` without a value (R133, U2). -/
  unwritten : Nat → α

/-- The frame roles, in the order of the source's list (R19). -/
inductive Role where
  | reference | voltage | rippleVoltage | current | throttle | outputPower | rpm | becVoltage | becCurrent | temp1 | temp2
  deriving DecidableEq, Repr

/-- The index of a role in the tick file (R19). -/
def Role.index : Role → Fin 11
  | .reference => 0
  | .voltage => 1
  | .rippleVoltage => 2
  | .current => 3
  | .throttle => 4
  | .outputPower => 5
  | .rpm => 6
  | .becVoltage => 7
  | .becCurrent => 8
  | .temp1 => 9
  | .temp2 => 10

/-- The nine value fields of a reading record (R21). -/
inductive Field where
  | voltage | rippleVoltage | current | throttle | outputPower | erpm | becVoltage | becCurrent | temperature
  deriving DecidableEq, Repr

/-- The read ports (R133, R134). -/
inductive Port where
  /-- `N_ESC`. -/
  | nEsc
  /-- `TP_REPORTED`. -/
  | tpReported
  /-- `READING[e].F`. -/
  | field (e : RecIdx) (f : Field)
  /-- `READING[e].W_F`. -/
  | written (e : RecIdx) (f : Field)
  /-- `READING[e].POLES`. -/
  | poles (e : RecIdx)
  /-- `SHAFT_RPM[e]`, derived (R134). -/
  | shaftRpm (e : RecIdx)
  deriving DecidableEq, Repr

/-- One item of the input sequence: the four input events of R130, a read of a port (R133), and a byte array,
which "is the same as its bytes given one at a time in ascending index order" (R41, R135; log entry 6). -/
inductive Input where
  /-- `BYTE(b)`. -/
  | byte (b : Byte)
  /-- A byte array, the form in which R71 writes a whole frame or a `RAW` line. -/
  | bytes (bs : List Byte)
  /-- `TABLE_RESET(n)`. -/
  | tableReset (n : Int)
  /-- `SET_POLES(e, p)`. -/
  | setPoles (e : Nat) (p : Byte)
  /-- `RESET`. -/
  | reset
  /-- A read of a port, between two steps of the block. -/
  | read (p : Port)
  deriving DecidableEq, Repr

end Sys2Proof
end

