-- ==== Sys2Proof/Config.lean ====
section
/-! DEFINITION. The parameters of the block (R5): the calibration constants, each as the spec prints it (D23),
and the open values, which have no body (D8, D13, D15, U1, U2, U11). -/

namespace Sys2Proof.Config

/-- `FRAME_LEN_TELEMETRY` (R5). -/
def frameLenTelemetry : Nat := 25

/-- `FRAME_LEN_RESPONSE` (R5). -/
def frameLenResponse : Nat := 2

/-- `DEFAULT_POLES` (R5, R23). -/
def defaultPoles : Byte := 2#8

/-- `K_VOLTAGE` (R108). -/
def kVoltage : Rat := 20.0

/-- `K_RIPPLE` (R109). -/
def kRipple : Rat := 4.0

/-- `K_CURRENT` (R110). -/
def kCurrent : Rat := 50.0

/-- `K_THROTTLE`: 1, no scale (R111). -/
def kThrottle : Rat := 1

/-- The first factor of `K_POWER`, `0.2502` (R112). -/
def kPower : Rat := 0.2502

/-- The second factor of `K_POWER`, `100` (R112). -/
def kPercent : Rat := 100

/-- `K_RPM` (R113). -/
def kRpm : Rat := 20416.7

/-- `K_BEC_V` (R114). -/
def kBecVoltage : Rat := 4.0

/-- `K_BEC_I` (R115). -/
def kBecCurrent : Rat := 4.0

/-- `TEMP_SAT_THRESHOLD` (R117). -/
def tempSatThreshold : Rat := 3.9

/-- `TEMP_SAT_VALUE`, degrees Celsius (R117). -/
def tempSatValue : Rat := -40

/-- `TH_SCALE` (R118). -/
def thScale : Rat := 63.8125

/-- `TH_NUM` (R118). -/
def thNum : Rat := 10200

/-- `TH_FULL` (R118). -/
def thFull : Rat := 255

/-- `TH_DEN` (R118). -/
def thDen : Rat := 10000

/-- `TH_BETA` (R118). -/
def thBeta : Rat := 3455

/-- `TH_T0` (R118). -/
def thT0 : Rat := 298.15

/-- `TH_ZERO_C` (R118). -/
def thZeroC : Rat := 273.15

/-- `THERM_AT_ZERO`, the open temperature at a normalized value of exactly 0: any value, possibly another at
each occurrence (R119, U1, D13; log entry 5).  The argument is the occurrence. -/
opaque thermAtZero : Nat → Num

/-- What a read of an unwritten `NUM` field, or of `SHAFT_RPM` without a value, yields at an occurrence: any
value (R133, U2; log entry 5). -/
opaque unwrittenNum : Nat → Num

/-- What a read of an unwritten integer field yields at an occurrence: any value (R133, U2; log entry 5). -/
opaque unwrittenInt : Nat → Int

/-- `ACK_VALUE`: which value of the response bit means ACK (R5, R17, U11).  "Not used by any rule of the block". -/
opaque ackValue : Bool

end Sys2Proof.Config
end

