-- ==== Sys2Proof/Machine/State.lean ====
section
/-! DEFINITION. The state of the block (R10), with its reset value (R30), the results and events of its steps (R95,
R100, R146), and the reasons a step could stop. -/

namespace Sys2Proof.Machine

/-- `KIND`, the frame-kind tag; `noFrame` is the spec's `NONE` (R14). -/
inductive FrameKind where
  | noFrame | telemetry | response
  deriving DecidableEq, Repr

/-- The surfaced error kinds (R142 to R145).  `FRAMING` "has no code" and is not surfaced (R141). -/
inductive ErrorCode where
  | checksumMismatch | noReference | invalidArgument
  deriving DecidableEq, Repr

/-- The parser result of a step (R95). -/
inductive ParserResult where
  | pNone
  | pResponse (r : Bool)
  | pTelemetry
  | pChecksumError
  deriving DecidableEq, Repr

/-- The result of a decode: `Ok(changed)` or `Err(NoReference)` (R102). -/
inductive DecodeResult where
  | ok (changed : Bool)
  | noReference
  deriving DecidableEq, Repr

/-- The result of a step (R100, R131, R132, R160); `nothing` is the spec's `NONE`. -/
inductive Result where
  | nothing
  | response (r : Bool)
  | telemetry (e : RecIdx) (changed : Bool)
  | error (c : ErrorCode)
  | ok
  deriving DecidableEq, Repr

/-! ### The block for any type of `NUM`

`α` is the type of `NUM` (R127, D8, U4; log entry 3). -/

namespace Block

/-- One reading record (R21).  A value field with its written bit is one optional value, "none while `W_F == 0`"
(R22, U2; log entry 9). -/
@[ext]
structure Reading (α : Type) where
  voltage : Option α := none
  rippleVoltage : Option α := none
  current : Option α := none
  throttle : Option α := none
  outputPower : Option Int := none
  erpm : Option Int := none
  becVoltage : Option α := none
  becCurrent : Option α := none
  temperature : Option α := none
  poles : Byte := Config.defaultPoles
  deriving DecidableEq, Repr

/-- The output events (R146). -/
inductive Event (α : Type) where
  | response (r : Bool)
  | dataUpdated (e : RecIdx) (reading : Reading α)
  | tpChanged (tp : Bool)
  | error (c : ErrorCode)
  deriving DecidableEq, Repr

/-- What a read port shows (R133). -/
inductive PortValue (α : Type) where
  | count (n : EscCount)
  | bit (b : Bool)
  | num (q : α)
  | int (z : Int)
  | poles (p : Byte)
  deriving DecidableEq, Repr

/-- What one step of the block, or one operation run on its own, delivers: the parser result where a parser operation
ran, the decode result where a decode ran, the step's result, its events in the order a serialising consumer takes them
(R146), and the value of a port that was read. -/
structure Output (α : Type) where
  parser : Option ParserResult := none
  decoded : Option DecodeResult := none
  result : Option Result := none
  events : List (Event α) := []
  port : Option (PortValue α) := none
  deriving DecidableEq, Repr

/-- A decode in progress: the record it updates, its change flag (R120), and the model's count of free values. -/
structure DecodeRun (α : Type) where
  reading : Reading α
  changed : Bool
  free : Nat
  deriving DecidableEq, Repr

/-- The state of the block (R10), and three fields of the model's own: the input still to come, what the last step
delivered, and the count of free values used (R28; log entries 1, 2 and 5). -/
@[ext]
structure State (α : Type) where
  /-- `CNT`, the byte counter, 0 to 24 (R11; log entry 10). -/
  cnt : Nat
  /-- `HI`, the first byte of the pair in progress (R12). -/
  hi : Byte
  /-- `CK`, the running checksum (R13). -/
  ck : Byte
  /-- `KIND` (R14). -/
  kind : FrameKind
  /-- `ESC_ID` (R15). -/
  escId : EscId
  /-- `TP` (R16). -/
  tp : Bool
  /-- `RESP` (R17). -/
  resp : Bool
  /-- `T[0]` to `T[10]` (R18). -/
  ticks : Ticks
  /-- `N_ESC` (R20). -/
  nEsc : EscCount
  /-- `READING[0]` and `READING[1]` (R21). -/
  readings : Vector (Reading α) 2
  /-- `TP_REPORTED` (R24). -/
  tpReported : Bool
  /-- The model's own: the input items still to come, oldest first (R41, R49; log entry 1). -/
  input : List Input
  /-- The model's own: what the block's steps that the last model step ran delivered, oldest first (log entry 2). -/
  out : List (Output α)
  /-- The model's own: how many free values have been used (log entry 5). -/
  free : Nat
  deriving DecidableEq, Repr

/-- The state right after reset (R30, R160), for any type of `NUM`; the model's own fields empty (log entries 1, 2
and 5). -/
def State.initial {α : Type} : State α where
  cnt := 0
  hi := 0#8
  ck := 0#8
  kind := .noFrame
  escId := 0#3
  tp := false
  resp := false
  ticks := Vector.replicate 11 0#16
  nEsc := 0
  readings := Vector.replicate 2 {}
  tpReported := false
  input := []
  out := []
  free := 0

end Block

/-! ### The block as it is configured -/

/-- A reading record in the configured `NUM` (R21). -/
abbrev Reading := Block.Reading Num

/-- What a step delivers, in the configured `NUM`. -/
abbrev Output := Block.Output Num

/-- The state of the block in the configured `NUM` (R10). -/
abbrev State := Block.State Num

/-- The state right after reset (R30, R160). -/
def State.reset : State := Block.State.initial

/-- Reasons for the machine to stop with a fault: none.  "Nothing in the core is fatal to the process": no condition
stops the block (R140, R149); its error conditions are results of a step (`ErrorCode`; log entry 11). -/
inductive Fault where
  deriving DecidableEq, Repr

/-- Reasons to refuse an operation. -/
inductive Refusal where
  /-- Raised by an arm of `exec` for an operation that has no meaning yet; safe.  No arm raises it. -/
  | notModelled (mnemonic : String)
  deriving DecidableEq, Repr

/-- What the meaning of an operation answers. -/
abbrev Answer := Host.Outcome State Fault Refusal

end Sys2Proof.Machine
end

