-- ==== Sys2Proof/Machine/Flags.lean ====
section
/-! DEFINITION. The flag computations: the running checksum (R13), the populated test (R105), the written bits (R22)
and the change flag (R120). -/

namespace Sys2Proof.Machine

/-- The running checksum after the first header byte: "seeded with the header high byte" (R81). -/
def ckSeed (b : Byte) : Byte := b

/-- The running checksum after a further byte (R83, R86, R87). -/
def ckNext (ck b : Byte) : Byte := ck ^^^ b

/-- A role is populated when its raw tick is not 0 (R105). -/
def populated (t : Tick) : Bool := t != 0#16

/-- The change flag of one field update: true "if `W_F == 0` or if the old value of `F` differs from `v`", by the equality
test of the field's domain (R120). -/
def fieldChanged {β : Type} (eq : β → β → Bool) (old : Option β) (v : β) : Bool :=
  match old with
  | none => true
  | some w => !eq w v

/-- The equality test of the integer fields (R21, R120). -/
def intEq (a b : Int) : Bool := decide (a = b)

/-- `W_F` of a record (R22). -/
def writtenBit {α : Type} (r : Block.Reading α) : Field → Bool
  | .voltage => r.voltage.isSome
  | .rippleVoltage => r.rippleVoltage.isSome
  | .current => r.current.isSome
  | .throttle => r.throttle.isSome
  | .outputPower => r.outputPower.isSome
  | .erpm => r.erpm.isSome
  | .becVoltage => r.becVoltage.isSome
  | .becCurrent => r.becCurrent.isSome
  | .temperature => r.temperature.isSome

end Sys2Proof.Machine
end

