-- ==== Sys2Proof/Syntax.lean ====
section
/-! DEFINITION. The operations of the block, in the place of an instruction set (R2): one constructor for each
row of spec/opcode_table.json, in the table's order. -/

namespace Sys2Proof

/-- The operations of the block (R2).  The frame rows carry the fields of the frame, the per-byte rows the input
byte, `DECODE` and the channel rows the record they update, the host rows the operands of the event. -/
inductive Instr where
  /-- `TELEMETRY`: a 25-byte frame, its header fields, eleven ticks and checksum byte (R61, R91). -/
  | telemetry (tp : Bool) (esc : EscId) (ticks : Ticks) (ck : Byte)
  /-- `RESPONSE`: a 2-byte frame and its response bit (R63, R92). -/
  | response (r : Bool)
  /-- `FRAMING_ERROR`: a header pair that matches neither frame kind (R67, R68, R85). -/
  | framingError (h l : Byte)
  /-- `HDR_HI` (R81). -/
  | hdrHi (b : Byte)
  /-- `HDR_LO` (R82). -/
  | hdrLo (b : Byte)
  /-- `HDR_LO.TELEMETRY` (R83). -/
  | hdrLoTelemetry (b : Byte)
  /-- `HDR_LO.RESPONSE` (R84). -/
  | hdrLoResponse (b : Byte)
  /-- `HDR_LO.FRAMING` (R85). -/
  | hdrLoFraming (b : Byte)
  /-- `DATA_HI` (R86). -/
  | dataHi (b : Byte)
  /-- `DATA_LO` (R87). -/
  | dataLo (b : Byte)
  /-- `CKSUM.MATCH` (R88). -/
  | cksumMatch (b : Byte)
  /-- `CKSUM.MISMATCH` (R89). -/
  | cksumMismatch (b : Byte)
  /-- `INGEST`: one whole `BYTE(b)` step (R100). -/
  | ingest (b : Byte)
  /-- `DECODE` of the retained ticks into record `e` (R102). -/
  | decode (e : RecIdx)
  /-- `CH.VOLTAGE` (R108). -/
  | chVoltage (e : RecIdx)
  /-- `CH.RIPPLE_VOLTAGE` (R109). -/
  | chRippleVoltage (e : RecIdx)
  /-- `CH.CURRENT` (R110). -/
  | chCurrent (e : RecIdx)
  /-- `CH.THROTTLE` (R111). -/
  | chThrottle (e : RecIdx)
  /-- `CH.OUTPUT_POWER` (R112). -/
  | chOutputPower (e : RecIdx)
  /-- `CH.RPM` (R113). -/
  | chRpm (e : RecIdx)
  /-- `CH.BEC_VOLTAGE` (R114). -/
  | chBecVoltage (e : RecIdx)
  /-- `CH.BEC_CURRENT` (R115). -/
  | chBecCurrent (e : RecIdx)
  /-- `CH.TEMPERATURE` (R116 to R119, R121). -/
  | chTemperature (e : RecIdx)
  /-- `TABLE_RESET(n)`, `n` any integer (R131, U7). -/
  | tableReset (n : Int)
  /-- `SET_POLES(e, p)`, `p` a `u8` (R132, U7). -/
  | setPoles (e : Nat) (p : Byte)
  /-- `RESET` (R160). -/
  | reset
  /-- `READ` of a port (R133, R134). -/
  | read (p : Port)
  deriving DecidableEq, Repr

end Sys2Proof
end

