-- ==== Sys2Proof/Decode.lean ====
section
/-! DEFINITION. Decoding and encoding.  The bit fields of the wire (R6, R61 to R66), the decoder of inbound bytes into
frames, total and rejecting by name (R67 to R69), the selection of the per-byte operation (R70, R80, R82), of the
channel of a role (R19, R107) and of the record of a frame (R101), the input events (R130), and the encoder. -/

namespace Sys2Proof

/-! ### Bit fields of the wire -/

/-- The telemetry header test (R62). -/
def isTelemetryHeader (h l : Byte) : Bool := h == 0xFF#8 && (l &&& 0xF0#8) == 0xF0#8

/-- The response header test (R63). -/
def isResponseHeader (h l : Byte) : Bool := h == 0x55#8 && (l &&& 0xFE#8) == 0xAA#8

/-- `esc = l[2:0]` (R64). -/
def escField (l : Byte) : EscId := l.extractLsb' 0 3

/-- `tp = l[3]` (R64). -/
def tpField (l : Byte) : Bool := l.getLsbD 3

/-- `r = l[0]` (R64). -/
def respField (l : Byte) : Bool := l.getLsbD 0

/-- `{hi, lo} = hi * 256 + lo`, the tick of a data pair (R42, R65). -/
def tickOf (hi lo : Byte) : Tick := BitVec.ofNat 16 (hi.toNat * 256 + lo.toNat)

/-- Bits 15:8 of a tick, the byte received first (R61). -/
def tickHi (t : Tick) : Byte := BitVec.ofNat 8 (t.toNat / 256)

/-- Bits 7:0 of a tick (R61). -/
def tickLo (t : Tick) : Byte := BitVec.ofNat 8 (t.toNat % 256)

/-- The bitwise XOR of a run of bytes (R66). -/
def xorAll (bs : List Byte) : Byte := bs.foldl (· ^^^ ·) 0#8

/-! ### Encoding -/

/-- Byte 1 of a telemetry frame: `1111tEEE` (R61). -/
def telemetryLow (tp : Bool) (esc : EscId) : Byte := 0b1111#4 ++ BitVec.ofBool tp ++ esc

/-- Byte 1 of a response frame: `1010101r` (R63). -/
def responseLow (r : Bool) : Byte := 0b1010101#7 ++ BitVec.ofBool r

/-- Bytes 2 to 23 of a telemetry frame: each tick, high byte first, in role order (R61). -/
def tickBytes (ticks : Ticks) : List Byte := ticks.toList.flatMap fun t => [tickHi t, tickLo t]

/-- The 24 bytes of a telemetry frame that its checksum covers (R66). -/
def coveredBytes (tp : Bool) (esc : EscId) (ticks : Ticks) : List Byte :=
  0xFF#8 :: telemetryLow tp esc :: tickBytes ticks

/-- The 25 bytes of a telemetry frame (R61). -/
def telemetryBytes (tp : Bool) (esc : EscId) (ticks : Ticks) (ck : Byte) : List Byte :=
  coveredBytes tp esc ticks ++ [ck]

/-- The 2 bytes of a response frame (R63). -/
def responseBytes (r : Bool) : List Byte := [0x55#8, responseLow r]

/-- The bytes of an operation that has a byte encoding: the two frame kinds and the failed pair (R61, R63, R67), and
the one byte of a per-byte operation, which the state selects (R70, `selectOp`).  The decode operation and its
channels have none, and "the last three are the host operations ..., which have no wire encoding" (R71). -/
def encode : Instr → Option (List Byte)
  | .telemetry tp esc ticks ck => some (telemetryBytes tp esc ticks ck)
  | .response r => some (responseBytes r)
  | .framingError h l => some [h, l]
  | .hdrHi b => some [b]
  | .hdrLo b => some [b]
  | .hdrLoTelemetry b => some [b]
  | .hdrLoResponse b => some [b]
  | .hdrLoFraming b => some [b]
  | .dataHi b => some [b]
  | .dataLo b => some [b]
  | .cksumMatch b => some [b]
  | .cksumMismatch b => some [b]
  | .ingest b => some [b]
  | .decode _ => none
  | .chVoltage _ => none
  | .chRippleVoltage _ => none
  | .chCurrent _ => none
  | .chThrottle _ => none
  | .chOutputPower _ => none
  | .chRpm _ => none
  | .chBecVoltage _ => none
  | .chBecCurrent _ => none
  | .chTemperature _ => none
  | .tableReset _ => none
  | .setPoles _ _ => none
  | .reset => none
  | .read _ => none

/-- The item of the input sequence that asks for an operation (R71, R130, R133): none for the operations that only
the block itself runs, inside a `BYTE` step (R70, R102). -/
def present : Instr → Option Input
  | .telemetry tp esc ticks ck => some (.bytes (telemetryBytes tp esc ticks ck))
  | .response r => some (.bytes (responseBytes r))
  | .framingError h l => some (.bytes [h, l])
  | .ingest b => some (.byte b)
  | .tableReset n => some (.tableReset n)
  | .setPoles e p => some (.setPoles e p)
  | .reset => some .reset
  | .read p => some (.read p)
  | .hdrHi _ => none
  | .hdrLo _ => none
  | .hdrLoTelemetry _ => none
  | .hdrLoResponse _ => none
  | .hdrLoFraming _ => none
  | .dataHi _ => none
  | .dataLo _ => none
  | .cksumMatch _ => none
  | .cksumMismatch _ => none
  | .decode _ => none
  | .chVoltage _ => none
  | .chRippleVoltage _ => none
  | .chCurrent _ => none
  | .chThrottle _ => none
  | .chOutputPower _ => none
  | .chRpm _ => none
  | .chBecVoltage _ => none
  | .chBecCurrent _ => none
  | .chTemperature _ => none

/-- `TELEM esc= tp= t=`: the telemetry frame "and the checksum computed by rule R66" (R71).  `TELEM ... ck=` (R72) is
`Instr.telemetry` itself. -/
def telem (tp : Bool) (esc : EscId) (ticks : Ticks) : Instr :=
  .telemetry tp esc ticks (xorAll (coveredBytes tp esc ticks))

/-- `TELEM ... role=<tick>`: the ticks named by role, "every unnamed tick 0" (R72). -/
def roleTicks (ref v rip cur thr pow rpm becv beci t1 t2 : Tick := 0#16) : Ticks :=
  #v[ref, v, rip, cur, thr, pow, rpm, becv, beci, t1, t2]

/-! ### Decoding of inbound bytes -/

/-- Why a run of bytes is not yet a frame: never because of a byte's value, since every header pair is classified
(R67, R68), only because bytes are still missing. -/
inductive Reject where
  /-- No byte at all. -/
  | empty
  /-- One byte: "the header is judged as a pair" (R81). -/
  | loneByte
  /-- A telemetry header with fewer than 23 bytes after it (R69). -/
  | shortTelemetry
  deriving DecidableEq, Repr

/-- The frame at the head of a run of bytes that starts where the parser expects a header, and the bytes after it
(R67, R69): a telemetry frame takes 25 bytes, a response frame 2, and any other pair is a framing error of 2. -/
def decode : List Byte → Except Reject (Instr × List Byte)
  | [] => .error .empty
  | [_] => .error .loneByte
  | h :: l :: rest =>
    if isTelemetryHeader h l then
      if 23 ≤ rest.length then
        .ok (.telemetry (tpField l) (escField l)
              (Vector.ofFn fun i => tickOf (rest.getD (2 * i.val) 0#8) (rest.getD (2 * i.val + 1) 0#8))
              (rest.getD 22 0#8),
            rest.drop 23)
      else .error .shortTelemetry
    else if isResponseHeader h l then .ok (.response (respField l), rest)
    else .ok (.framingError h l, rest)

/-- What the head of a byte array asks for, and the bytes left: a frame where one is complete, else one `BYTE` step
for its first byte (R41, R135; log entry 6). -/
def decodeArray : List Byte → Option (Instr × List Byte)
  | [] => none
  | b :: bs =>
    match decode (b :: bs) with
    | .ok r => some r
    | .error _ => some (.ingest b, bs)

/-- The operation an input item asks for, and the bytes of an array that it leaves (R130, R133, R135). -/
def decodeInput : Input → Option (Instr × List Byte)
  | .byte b => some (.ingest b, [])
  | .bytes bs => decodeArray bs
  | .tableReset n => some (.tableReset n, [])
  | .setPoles e p => some (.setPoles e p, [])
  | .reset => some (.reset, [])
  | .read p => some (.read p, [])

/-! ### Selection by the state -/

/-- The per-byte operation that the block runs on byte `b` (the selectors of the table; R70, R80, R82, R88, R89). -/
def selectOp (cnt : Nat) (hi ck b : Byte) : Instr :=
  if cnt = 0 then .hdrHi b
  else if cnt = 1 then
    if isTelemetryHeader hi b then .hdrLoTelemetry b
    else if isResponseHeader hi b then .hdrLoResponse b
    else .hdrLoFraming b
  else if cnt ≤ 22 ∧ cnt % 2 = 0 then .dataHi b
  else if cnt ≤ 23 ∧ cnt % 2 = 1 then .dataLo b
  else if b = ck then .cksumMatch b
  else .cksumMismatch b

/-- The channel that a role's tick feeds; the reference role is "never decoded into a field" (R19, R105, R116). -/
def selectChannel (e : RecIdx) : Role → Option Instr
  | .reference => none
  | .voltage => some (.chVoltage e)
  | .rippleVoltage => some (.chRippleVoltage e)
  | .current => some (.chCurrent e)
  | .throttle => some (.chThrottle e)
  | .outputPower => some (.chOutputPower e)
  | .rpm => some (.chRpm e)
  | .becVoltage => some (.chBecVoltage e)
  | .becCurrent => some (.chBecCurrent e)
  | .temp1 => some (.chTemperature e)
  | .temp2 => some (.chTemperature e)

/-- The reading record of an ESC identifier: the identifier itself where it is below `N_ESC`, else none (R101). -/
def recordOf (esc : EscId) (n : EscCount) : Option RecIdx :=
  if h : esc.toNat < n.val then some ⟨esc.toNat, by omega⟩ else none

/-- The decode operation that an accepted telemetry frame asks for, if any (R101, R102). -/
def selectDecode (esc : EscId) (n : EscCount) : Option Instr := (recordOf esc n).map .decode

/-! ### The opcode table's words -/

/-- Byte `k` of the table's word `w`: the table numbers the bits of a 16-bit header word with the first byte in bits
15:8 (R62, R63), so words of 16 bits lie big-endian (R42), and the checksum byte comes last (R61). -/
def tableByte (w k : Nat) : Byte :=
  if k < 24 then BitVec.ofNat 8 (w / 2 ^ (16 * (k / 2) + if k % 2 = 0 then 8 else 0))
  else BitVec.ofNat 8 (w / 2 ^ 192)

/-- The 25 bytes of the table's word: every bit above `nbits` is 0. -/
def tableBytes (nbits w : Nat) : List Byte := (List.range 25).map (tableByte (w % 2 ^ nbits))

/-- The input item that holds the table's word: one byte for the `BYTE` format, else a byte array. -/
def tableInput (nbits w : Nat) : Input :=
  if nbits ≤ 8 then .byte (BitVec.ofNat 8 (w % 2 ^ nbits)) else .bytes (tableBytes nbits w)

/-- The operation the decoder reads from a word of the opcode table. -/
def decodeTableWord (nbits w : Nat) : Option Instr := (decodeInput (tableInput nbits w)).map Prod.fst

end Sys2Proof
end

