-- ==== Sys2Proof/Machine/Exact.lean ====
section
/-! DEFINITION. Instances of the configuration record `NUM` (R127): the reference semantics, exact arithmetic (R126, D8),
with which the machine is configured, and formats that round each operation (U4). -/

namespace Sys2Proof.Machine

/-! ### The reference semantics -/

/-- The exact sum. -/
def exactAdd : Exact → Exact → Exact
  | .rat p, .rat q => .rat (p + q)
  | a, b => .add a b

/-- The exact difference. -/
def exactSub : Exact → Exact → Exact
  | .rat p, .rat q => .rat (p - q)
  | a, b => .sub a b

/-- The exact product. -/
def exactMul : Exact → Exact → Exact
  | .rat p, .rat q => .rat (p * q)
  | a, b => .mul a b

/-- The exact quotient; a division by 0 is no number and stays an expression ("division by zero is excluded", R126). -/
def exactDiv : Exact → Exact → Exact
  | .rat p, .rat q => if q = 0 then .div (.rat p) (.rat q) else .rat (p / q)
  | a, b => .div a b

/-- The natural logarithm; `ln 1` is 0, and at any other rational number it stays an expression, since it is irrational
there (log entry 4). -/
def exactLn : Exact → Exact
  | .rat q => if q = 1 then .rat 0 else .ln (.rat q)
  | a => .ln a

/-- "Comparison of a rational" (R126); no other number is compared (log entry 4). -/
def exactGt : Exact → Exact → Bool
  | .rat p, .rat q => decide (p > q)
  | _, _ => false

/-- Equality (R120): that of the data (log entry 4). -/
def exactEq (a b : Exact) : Bool := decide (a = b)

/-- `floor(x + 1/2)` (R5, D9). -/
def roundHalfUp (x : Rat) : Int := (x + 1 / 2).floor

/-- `ROUND` (R5, R126); rational numbers alone are rounded (log entry 4). -/
def exactRound : Exact → Int
  | .rat q => roundHalfUp q
  | _ => 0

/-- The reference semantics of `NUM` (R5, R126, D8). -/
def exactFormat : NumFormat Exact where
  ofInt z := .rat z
  literal q := .rat q
  add := exactAdd
  sub := exactSub
  mul := exactMul
  div := exactDiv
  ln := exactLn
  gt := exactGt
  eq := exactEq
  round := exactRound

/-- What the machine of this package is configured with: the reference semantics and the open values of Config
(log entries 3 and 5). -/
def configured : NumParams Num where
  num := exactFormat
  thermAtZero := Config.thermAtZero
  unwritten := Config.unwrittenNum

/-- The real number that an exact number is (R118, R126), in Lean's convention where there is none: a division by 0 and the
logarithm of a number that is not positive, which no reading reaches (R119). -/
def denotes : Exact → ℝ → Prop
  | .rat q, r => r = (q : ℝ)
  | .ln a, r => ∃ x, denotes a x ∧ r = Real.log x
  | .add a b, r => ∃ x y, denotes a x ∧ denotes b y ∧ r = x + y
  | .sub a b, r => ∃ x y, denotes a x ∧ denotes b y ∧ r = x - y
  | .mul a b, r => ∃ x y, denotes a x ∧ denotes b y ∧ r = x * y
  | .div a b, r => ∃ x y, denotes a x ∧ denotes b y ∧ r = x / y

/-! ### Formats that round -/

/-- A format whose numbers are the rational numbers that `rnd` gives, each operation being the exact one rounded, with an
approximation of the logarithm; a quotient by 0 is 0 (U4; log entry 3). -/
def roundedFormat (rnd : Rat → Rat) (ln : Rat → Rat) : NumFormat Rat where
  ofInt z := rnd z
  literal q := rnd q
  add a b := rnd (a + b)
  sub a b := rnd (a - b)
  mul a b := rnd (a * b)
  div a b := rnd (a / b)
  ln a := rnd (ln a)
  gt a b := decide (a > b)
  eq a b := decide (a = b)
  round a := roundHalfUp a

/-- The multiple of `1 / d` next to a rational number, a tie going up, held between `-bound` and `bound`: a fixed-point
format with finitely many numbers (U4). -/
def toFixedPoint (d : Nat) (bound : Rat) (q : Rat) : Rat :=
  max (-bound) (min bound ((roundHalfUp (q * (d : Rat)) : Rat) / (d : Rat)))

end Sys2Proof.Machine
end

