-- ==== Sys2Proof/Machine/Operands.lean ====
section
/-! DEFINITION. The operands of the decoder's operations, in the number format `NUM` that the configuration gives (R127):
ticks, offset and normalised values (R104, R106), the scaled and rounded values (R108 to R115), the thermistor function
(R117 to R119), and the operands of the host operations (R131, R132). -/

namespace Sys2Proof.Machine

variable {α : Type}

/-- `T[i]` by its role (R18, R19). -/
def tickAt (t : Ticks) (r : Role) : Tick := t[r.index]

/-- `offset = min(T[9], T[10])`, over the raw ticks as they are (R104). -/
def offset (t : Ticks) : Nat := min (tickAt t .temp1).toNat (tickAt t .temp2).toNat

/-- `norm(i) = (T[i] - offset) / T[0]`: a signed difference of integers, divided in `NUM` by the reference tick (R106,
R126; the order of operations of U4). -/
def normOf (f : NumFormat α) (t : Ticks) (r : Role) : α :=
  f.div (f.ofInt ((tickAt t r).toNat - (offset t : Int))) (f.ofInt (tickAt t .reference).toNat)

/-- `norm(i) * K`, the value of a linear channel (R108 to R111, R114, R115). -/
def scaled (f : NumFormat α) (k : Rat) (n : α) : α := f.mul n (f.literal k)

/-- `norm(5) * 0.2502 * 100` rounded, the two products in the source's order (R112). -/
def powerOf (f : NumFormat α) (n : α) : Int := f.round (scaled f Config.kPercent (scaled f Config.kPower n))

/-- `norm(6) * 20416.7` rounded (R113). -/
def rpmOf (f : NumFormat α) (n : α) : Int := f.round (scaled f Config.kRpm n)

/-- `x = d * 10200 / (255 - d) / 10000` with `d = n * 63.8125`, the argument of the logarithm (R118). -/
def thermArg (f : NumFormat α) (n : α) : α :=
  let d := f.mul n (f.literal Config.thScale)
  f.div (f.div (f.mul d (f.literal Config.thNum)) (f.sub (f.literal Config.thFull) d)) (f.literal Config.thDen)

/-- The thermistor formula `1 / ( ln(x) / 3455 + 1 / 298.15 ) - 273.15` (R118). -/
def thermistor (f : NumFormat α) (n : α) : α :=
  f.sub
    (f.div (f.literal 1)
      (f.add (f.div (f.ln (thermArg f n)) (f.literal Config.thBeta)) (f.div (f.literal 1) (f.literal Config.thT0))))
    (f.literal Config.thZeroC)

/-- `THERM(n)` for `n` other than 0: the saturation value above 3.9, else the formula (R117, R118). -/
def therm (f : NumFormat α) (n : α) : α :=
  if f.gt n (f.literal Config.tempSatThreshold) then f.literal Config.tempSatValue else thermistor f n

/-- The temperature role selected for a frame: TEMP2 when its tick exceeds TEMP1's, else TEMP1, and none when
neither is populated (R116). -/
def selectTemp (t : Ticks) : Option Role :=
  if tickAt t .temp1 = 0#16 ∧ tickAt t .temp2 = 0#16 then none
  else if (tickAt t .temp2).toNat > (tickAt t .temp1).toNat then some .temp2
  else some .temp1

/-- The count that `TABLE_RESET(n)` writes: 1 or 2, and none for any other integer (R131). -/
def countOf (n : Int) : Option EscCount :=
  if n = 1 then some 1 else if n = 2 then some 2 else none

/-- The record whose pole count `SET_POLES(e, p)` writes: `e < N_ESC`, `p` even and `p >= 2`, else none (R132). -/
def poleTarget (e : Nat) (p : Byte) (n : EscCount) : Option RecIdx :=
  if h : e < n.val ∧ p.toNat % 2 = 0 ∧ 2 ≤ p.toNat then some ⟨e, by omega⟩ else none

end Sys2Proof.Machine
end

