-- ==== Sys2Proof/Machine/Ops.lean ====
section
/-! DEFINITION. The shared operations on the state: clearing the parser group (R90), writing a tick (R87) and a record
(R21), delivering a step's output, and raising an error (R149), the block's only counterpart of taking an exception. -/

namespace Sys2Proof.Machine.Block

variable {α : Type}

/-- `CLEAR_FRAME()`: the parser group returns to its reset values, and nothing else changes (R90). -/
def State.clearFrame (s : State α) : State α :=
  { s with cnt := 0, hi := 0#8, ck := 0#8, kind := .noFrame, escId := 0#3, tp := false, resp := false,
           ticks := Vector.replicate 11 0#16 }

/-- `T[i] <- v` (R87). -/
def State.setTick (i : Nat) (v : Tick) (s : State α) : State α := { s with ticks := s.ticks.setIfInBounds i v }

/-- `READING[e]` (R21). -/
def State.record (s : State α) (e : RecIdx) : Reading α := s.readings[e]

/-- A write of `READING[e]` (R21). -/
def State.setRecord (e : RecIdx) (r : Reading α) (s : State α) : State α := { s with readings := s.readings.set e r }

/-- The input still to come, set. -/
def State.withInput (l : List Input) (s : State α) : State α := { s with input := l }

/-- What the model's step has delivered, set. -/
def State.withOut (o : List (Output α)) (s : State α) : State α := { s with out := o }

/-- The count of free values used, set. -/
def State.withFree (k : Nat) (s : State α) : State α := { s with free := k }

/-- The step or operation ends and delivers one output. -/
def State.deliver (o : Output α) (s : State α) : State α := s.withOut [o]

/-- The events that an error raises: `ERROR(code)` for a decode failure (R125, R142, R143), none for
`INVALID_ARGUMENT` ("no event", R144). -/
def errorEvents : ErrorCode → List (Event α)
  | .checksumMismatch => [.error .checksumMismatch]
  | .noReference => [.error .noReference]
  | .invalidArgument => []

/-- `raise <Error>`: the step ends with result `ERROR(code)` and its event.  "An error saves nothing and transfers
control nowhere" (R149), and "there is no return operation and nothing to restore" (R150). -/
def State.raise (c : ErrorCode) (o : Output α) (s : State α) : State α :=
  s.deliver { o with result := some (.error c), events := errorEvents c }

end Sys2Proof.Machine.Block

namespace Sys2Proof.Machine

/-- The number of an error code (R145). -/
def errorNumber : ErrorCode → Nat
  | .checksumMismatch => 1
  | .noReference => 2
  | .invalidArgument => 3

end Sys2Proof.Machine
end

