-- ==== Sys2Proof/Machine/Decoder.lean ====
section
/-! DEFINITION. The telemetry decoder: the nine channels (R108 to R121), `decode` (R102, R103), and the meanings of
`DECODE` and of the channel rows.  A channel reads the ticks and continues a decode in progress. -/

namespace Sys2Proof.Machine.Block

variable {α : Type}

/-- `upd(VOLTAGE, v)` (R120). -/
def updVoltage (f : NumFormat α) (v : α) (d : DecodeRun α) : DecodeRun α :=
  { d with reading := { d.reading with voltage := some v },
           changed := d.changed || fieldChanged f.eq d.reading.voltage v }

/-- `upd(RIPPLE_VOLTAGE, v)` (R120). -/
def updRippleVoltage (f : NumFormat α) (v : α) (d : DecodeRun α) : DecodeRun α :=
  { d with reading := { d.reading with rippleVoltage := some v },
           changed := d.changed || fieldChanged f.eq d.reading.rippleVoltage v }

/-- `upd(CURRENT, v)` (R120). -/
def updCurrent (f : NumFormat α) (v : α) (d : DecodeRun α) : DecodeRun α :=
  { d with reading := { d.reading with current := some v },
           changed := d.changed || fieldChanged f.eq d.reading.current v }

/-- `upd(THROTTLE, v)` (R120). -/
def updThrottle (f : NumFormat α) (v : α) (d : DecodeRun α) : DecodeRun α :=
  { d with reading := { d.reading with throttle := some v },
           changed := d.changed || fieldChanged f.eq d.reading.throttle v }

/-- `upd(OUTPUT_POWER, v)` (R120). -/
def updOutputPower (v : Int) (d : DecodeRun α) : DecodeRun α :=
  { d with reading := { d.reading with outputPower := some v },
           changed := d.changed || fieldChanged intEq d.reading.outputPower v }

/-- `upd(ERPM, v)` (R120). -/
def updErpm (v : Int) (d : DecodeRun α) : DecodeRun α :=
  { d with reading := { d.reading with erpm := some v },
           changed := d.changed || fieldChanged intEq d.reading.erpm v }

/-- `upd(BEC_VOLTAGE, v)` (R120). -/
def updBecVoltage (f : NumFormat α) (v : α) (d : DecodeRun α) : DecodeRun α :=
  { d with reading := { d.reading with becVoltage := some v },
           changed := d.changed || fieldChanged f.eq d.reading.becVoltage v }

/-- `upd(BEC_CURRENT, v)` (R120). -/
def updBecCurrent (f : NumFormat α) (v : α) (d : DecodeRun α) : DecodeRun α :=
  { d with reading := { d.reading with becCurrent := some v },
           changed := d.changed || fieldChanged f.eq d.reading.becCurrent v }

/-- `upd(TEMPERATURE, v)` (R120). -/
def updTemperature (f : NumFormat α) (v : α) (d : DecodeRun α) : DecodeRun α :=
  { d with reading := { d.reading with temperature := some v },
           changed := d.changed || fieldChanged f.eq d.reading.temperature v }

/-- VOLTAGE (R108); an unpopulated role is skipped (R105). -/
def chVoltage (f : NumFormat α) (t : Ticks) (d : DecodeRun α) : DecodeRun α :=
  if populated (tickAt t .voltage) then updVoltage f (scaled f Config.kVoltage (normOf f t .voltage)) d else d

/-- RIPPLE_VOLTAGE (R109). -/
def chRippleVoltage (f : NumFormat α) (t : Ticks) (d : DecodeRun α) : DecodeRun α :=
  if populated (tickAt t .rippleVoltage) then
    updRippleVoltage f (scaled f Config.kRipple (normOf f t .rippleVoltage)) d
  else d

/-- CURRENT (R110). -/
def chCurrent (f : NumFormat α) (t : Ticks) (d : DecodeRun α) : DecodeRun α :=
  if populated (tickAt t .current) then updCurrent f (scaled f Config.kCurrent (normOf f t .current)) d else d

/-- THROTTLE (R111), with "the rational constants 20, 4, 50, 1" of R126. -/
def chThrottle (f : NumFormat α) (t : Ticks) (d : DecodeRun α) : DecodeRun α :=
  if populated (tickAt t .throttle) then updThrottle f (scaled f Config.kThrottle (normOf f t .throttle)) d else d

/-- OUTPUT_POWER (R112). -/
def chOutputPower (f : NumFormat α) (t : Ticks) (d : DecodeRun α) : DecodeRun α :=
  if populated (tickAt t .outputPower) then updOutputPower (powerOf f (normOf f t .outputPower)) d else d

/-- RPM, electrical (R113). -/
def chRpm (f : NumFormat α) (t : Ticks) (d : DecodeRun α) : DecodeRun α :=
  if populated (tickAt t .rpm) then updErpm (rpmOf f (normOf f t .rpm)) d else d

/-- BEC_VOLTAGE (R114). -/
def chBecVoltage (f : NumFormat α) (t : Ticks) (d : DecodeRun α) : DecodeRun α :=
  if populated (tickAt t .becVoltage) then updBecVoltage f (scaled f Config.kBecVoltage (normOf f t .becVoltage)) d
  else d

/-- BEC_CURRENT (R115). -/
def chBecCurrent (f : NumFormat α) (t : Ticks) (d : DecodeRun α) : DecodeRun α :=
  if populated (tickAt t .becCurrent) then updBecCurrent f (scaled f Config.kBecCurrent (normOf f t .becCurrent)) d
  else d

/-- Temperature, written once from the selected role (R116, R121): the thermistor function of its normalised value, and
at a normalised value of exactly 0 the open value `THERM_AT_ZERO` of this occurrence, which uses up one free value
(R119, U1; log entry 5). -/
def chTemperature (P : NumParams α) (t : Ticks) (d : DecodeRun α) : DecodeRun α :=
  match selectTemp t with
  | none => d
  | some r =>
    if P.num.eq (normOf P.num t r) (P.num.ofInt 0) then
      { updTemperature P.num (P.thermAtZero d.free) d with free := d.free + 1 }
    else updTemperature P.num (therm P.num (normOf P.num t r)) d

/-- The channels that need no open value, "in ascending index order" (R107). -/
def eightChannels (f : NumFormat α) (t : Ticks) (d : DecodeRun α) : DecodeRun α :=
  chBecCurrent f t <| chBecVoltage f t <| chRpm f t <| chOutputPower f t <| chThrottle f t <| chCurrent f t <|
    chRippleVoltage f t <| chVoltage f t d

/-- All channels, "in ascending index order" (R107). -/
def allChannels (P : NumParams α) (t : Ticks) (d : DecodeRun α) : DecodeRun α :=
  chTemperature P t (eightChannels P.num t d)

/-- `decode(e)` restricted to some channels: the reference test before anything is written (R103), then the channels
over the old record, its change flag starting false (R102, R120). -/
def decodeWith (channels : Ticks → DecodeRun α → DecodeRun α) (e : RecIdx) (s : State α) : State α × DecodeResult :=
  if tickAt s.ticks .reference = 0#16 then (s, .noReference)
  else
    let d := channels s.ticks { reading := s.record e, changed := false, free := s.free }
    ((s.setRecord e d.reading).withFree d.free, .ok d.changed)

/-- `decode(e)` (R102). -/
def decodeFrame (P : NumParams α) (e : RecIdx) (s : State α) : State α × DecodeResult := decodeWith (allChannels P) e s

/-- A decode row on its own, over the retained ticks, delivering the decode result (R102; log entry 8). -/
def decodeRow (channels : Ticks → DecodeRun α → DecodeRun α) (e : RecIdx) (s : State α) : State α :=
  let r := decodeWith channels e s
  r.1.deliver { decoded := some r.2 }

/-! ### The rows, for any number format -/

/-- `DECODE` (R102). -/
def runDecode (P : NumParams α) (e : RecIdx) (s : State α) : State α := decodeRow (allChannels P) e s

/-- `CH.VOLTAGE` (R108). -/
def runChVoltage (P : NumParams α) (e : RecIdx) (s : State α) : State α := decodeRow (chVoltage P.num) e s

/-- `CH.RIPPLE_VOLTAGE` (R109). -/
def runChRippleVoltage (P : NumParams α) (e : RecIdx) (s : State α) : State α := decodeRow (chRippleVoltage P.num) e s

/-- `CH.CURRENT` (R110). -/
def runChCurrent (P : NumParams α) (e : RecIdx) (s : State α) : State α := decodeRow (chCurrent P.num) e s

/-- `CH.THROTTLE` (R111). -/
def runChThrottle (P : NumParams α) (e : RecIdx) (s : State α) : State α := decodeRow (chThrottle P.num) e s

/-- `CH.OUTPUT_POWER` (R112). -/
def runChOutputPower (P : NumParams α) (e : RecIdx) (s : State α) : State α := decodeRow (chOutputPower P.num) e s

/-- `CH.RPM` (R113). -/
def runChRpm (P : NumParams α) (e : RecIdx) (s : State α) : State α := decodeRow (chRpm P.num) e s

/-- `CH.BEC_VOLTAGE` (R114). -/
def runChBecVoltage (P : NumParams α) (e : RecIdx) (s : State α) : State α := decodeRow (chBecVoltage P.num) e s

/-- `CH.BEC_CURRENT` (R115). -/
def runChBecCurrent (P : NumParams α) (e : RecIdx) (s : State α) : State α := decodeRow (chBecCurrent P.num) e s

/-- `CH.TEMPERATURE` (R116). -/
def runChTemperature (P : NumParams α) (e : RecIdx) (s : State α) : State α := decodeRow (chTemperature P) e s

end Sys2Proof.Machine.Block

/-! ### The meanings in the configured number format -/

namespace Sys2Proof.Machine

@[inherit_doc Block.runDecode]
def execDecode (e : RecIdx) (s : State) : Answer := .next (Block.runDecode configured e s)

@[inherit_doc Block.runChVoltage]
def execChVoltage (e : RecIdx) (s : State) : Answer := .next (Block.runChVoltage configured e s)

@[inherit_doc Block.runChRippleVoltage]
def execChRippleVoltage (e : RecIdx) (s : State) : Answer := .next (Block.runChRippleVoltage configured e s)

@[inherit_doc Block.runChCurrent]
def execChCurrent (e : RecIdx) (s : State) : Answer := .next (Block.runChCurrent configured e s)

@[inherit_doc Block.runChThrottle]
def execChThrottle (e : RecIdx) (s : State) : Answer := .next (Block.runChThrottle configured e s)

@[inherit_doc Block.runChOutputPower]
def execChOutputPower (e : RecIdx) (s : State) : Answer := .next (Block.runChOutputPower configured e s)

@[inherit_doc Block.runChRpm]
def execChRpm (e : RecIdx) (s : State) : Answer := .next (Block.runChRpm configured e s)

@[inherit_doc Block.runChBecVoltage]
def execChBecVoltage (e : RecIdx) (s : State) : Answer := .next (Block.runChBecVoltage configured e s)

@[inherit_doc Block.runChBecCurrent]
def execChBecCurrent (e : RecIdx) (s : State) : Answer := .next (Block.runChBecCurrent configured e s)

@[inherit_doc Block.runChTemperature]
def execChTemperature (e : RecIdx) (s : State) : Answer := .next (Block.runChTemperature configured e s)

end Sys2Proof.Machine
end

