-- ==== Sys2Proof/Machine/Parser.lean ====
section
/-! DEFINITION. The frame parser: one operation per row (R81 to R89), `feed`, which selects among them (R80), and the
meanings of the per-byte rows.  An operation gives the state after it and the parser result (R95). -/

namespace Sys2Proof.Machine.Block

variable {α : Type}

/-- `HDR_HI(b)` (R81). -/
def hdrHi (b : Byte) (s : State α) : State α × ParserResult :=
  ({ s with hi := b, ck := ckSeed b, cnt := 1 }, .pNone)

/-- `HDR_LO`, telemetry header accepted (R83). -/
def hdrLoTelemetry (b : Byte) (s : State α) : State α × ParserResult :=
  ({ s with kind := .telemetry, escId := escField b, tp := tpField b, ck := ckNext s.ck b, cnt := 2 }, .pNone)

/-- `HDR_LO`, response frame completed (R84). -/
def hdrLoResponse (b : Byte) (s : State α) : State α × ParserResult :=
  ({ s with kind := .response, resp := respField b, cnt := 0 }, .pResponse (respField b))

/-- `HDR_LO`, framing error (R85). -/
def hdrLoFraming (s : State α) : State α × ParserResult := (s.clearFrame, .pNone)

/-- `HDR_LO(b)`: classify the pair `(HI, b)` (R82). -/
def hdrLo (b : Byte) (s : State α) : State α × ParserResult :=
  if isTelemetryHeader s.hi b then hdrLoTelemetry b s
  else if isResponseHeader s.hi b then hdrLoResponse b s
  else hdrLoFraming s

/-- `DATA_HI(b)` (R86). -/
def dataHi (b : Byte) (s : State α) : State α × ParserResult :=
  ({ s with hi := b, ck := ckNext s.ck b, cnt := s.cnt + 1 }, .pNone)

/-- `DATA_LO(b)`, the store of the parser: `T[(CNT - 3) / 2] <- {HI, b}` (R87). -/
def dataLo (b : Byte) (s : State α) : State α × ParserResult :=
  ({ s.setTick ((s.cnt - 3) / 2) (tickOf s.hi b) with ck := ckNext s.ck b, cnt := s.cnt + 1 }, .pNone)

/-- `CKSUM(b)`, match (R88). -/
def cksumMatch (s : State α) : State α × ParserResult := ({ s with cnt := 0 }, .pTelemetry)

/-- `CKSUM(b)`, mismatch (R89). -/
def cksumMismatch (s : State α) : State α × ParserResult := (s.clearFrame, .pChecksumError)

/-- `CKSUM(b)` (R88, R89). -/
def cksum (b : Byte) (s : State α) : State α × ParserResult :=
  if b = s.ck then cksumMatch s else cksumMismatch s

/-- `feed(b)`: exactly one of the five per-byte operations, by the value of `CNT` (R80, R70). -/
def feed (b : Byte) (s : State α) : State α × ParserResult :=
  if s.cnt = 0 then hdrHi b s
  else if s.cnt = 1 then hdrLo b s
  else if s.cnt ≤ 22 ∧ s.cnt % 2 = 0 then dataHi b s
  else if s.cnt ≤ 23 ∧ s.cnt % 2 = 1 then dataLo b s
  else cksum b s

/-- A per-byte row on its own.  Where its selector holds it is its own operation; elsewhere the byte runs the operation
that the block selects, since the host presents a byte and never an operation (R80; log entry 7).  It delivers the
parser result (R95). -/
def parserRow (selected : Bool) (op : State α → State α × ParserResult) (b : Byte) (s : State α) : State α :=
  let r := if selected then op s else feed b s
  r.1.deliver { parser := some r.2 }

/-! ### The rows, for any type of `NUM` -/

/-- `HDR_HI` (R81). -/
def runHdrHi (b : Byte) (s : State α) : State α :=
  parserRow (s.cnt == 0) (hdrHi b) b s

/-- `HDR_LO` (R82). -/
def runHdrLo (b : Byte) (s : State α) : State α :=
  parserRow (s.cnt == 1) (hdrLo b) b s

/-- `HDR_LO.TELEMETRY` (R83). -/
def runHdrLoTelemetry (b : Byte) (s : State α) : State α :=
  parserRow (s.cnt == 1 && isTelemetryHeader s.hi b) (hdrLoTelemetry b) b s

/-- `HDR_LO.RESPONSE` (R84). -/
def runHdrLoResponse (b : Byte) (s : State α) : State α :=
  parserRow (s.cnt == 1 && isResponseHeader s.hi b) (hdrLoResponse b) b s

/-- `HDR_LO.FRAMING` (R85). -/
def runHdrLoFraming (b : Byte) (s : State α) : State α :=
  parserRow (s.cnt == 1 && !isTelemetryHeader s.hi b && !isResponseHeader s.hi b) hdrLoFraming b s

/-- `DATA_HI` (R86). -/
def runDataHi (b : Byte) (s : State α) : State α :=
  parserRow (decide (2 ≤ s.cnt ∧ s.cnt ≤ 22 ∧ s.cnt % 2 = 0)) (dataHi b) b s

/-- `DATA_LO` (R87). -/
def runDataLo (b : Byte) (s : State α) : State α :=
  parserRow (decide (3 ≤ s.cnt ∧ s.cnt ≤ 23 ∧ s.cnt % 2 = 1)) (dataLo b) b s

/-- `CKSUM.MATCH` (R88). -/
def runCksumMatch (b : Byte) (s : State α) : State α :=
  parserRow (s.cnt == 24 && b == s.ck) cksumMatch b s

/-- `CKSUM.MISMATCH` (R89). -/
def runCksumMismatch (b : Byte) (s : State α) : State α :=
  parserRow (s.cnt == 24 && b != s.ck) cksumMismatch b s

end Sys2Proof.Machine.Block

/-! ### The meanings in the configured number format -/

namespace Sys2Proof.Machine

@[inherit_doc Block.runHdrHi]
def execHdrHi (b : Byte) (s : State) : Answer := .next (Block.runHdrHi b s)

@[inherit_doc Block.runHdrLo]
def execHdrLo (b : Byte) (s : State) : Answer := .next (Block.runHdrLo b s)

@[inherit_doc Block.runHdrLoTelemetry]
def execHdrLoTelemetry (b : Byte) (s : State) : Answer := .next (Block.runHdrLoTelemetry b s)

@[inherit_doc Block.runHdrLoResponse]
def execHdrLoResponse (b : Byte) (s : State) : Answer := .next (Block.runHdrLoResponse b s)

@[inherit_doc Block.runHdrLoFraming]
def execHdrLoFraming (b : Byte) (s : State) : Answer := .next (Block.runHdrLoFraming b s)

@[inherit_doc Block.runDataHi]
def execDataHi (b : Byte) (s : State) : Answer := .next (Block.runDataHi b s)

@[inherit_doc Block.runDataLo]
def execDataLo (b : Byte) (s : State) : Answer := .next (Block.runDataLo b s)

@[inherit_doc Block.runCksumMatch]
def execCksumMatch (b : Byte) (s : State) : Answer := .next (Block.runCksumMatch b s)

@[inherit_doc Block.runCksumMismatch]
def execCksumMismatch (b : Byte) (s : State) : Answer := .next (Block.runCksumMismatch b s)

end Sys2Proof.Machine
end

