-- ==== Sys2Proof/Machine/Ingest.lean ====
section
/-! DEFINITION. The ingest stage: what a `BYTE` step does with the parser result (R100, R101, R122 to R125), and runs of
`BYTE` steps (R41, R135). -/

namespace Sys2Proof.Machine.Block

variable {α : Type}

/-- The throttle-presence update after a decode that returned `Ok`: `TP_REPORTED <- TP` on a transition (R123). -/
def State.reportTp (s : State α) : State α := if s.tp ≠ s.tpReported then { s with tpReported := s.tp } else s

/-- The events of a decode that returned `Ok(changed)`: `DATA_UPDATED` with the record after the update if something
changed, then `TP_CHANGED` on a transition (R122, R123). -/
def decodeEvents (e : RecIdx) (changed : Bool) (s : State α) : List (Event α) :=
  (if changed then [.dataUpdated e (s.record e)] else []) ++
    (if s.tp ≠ s.tpReported then [.tpChanged s.tp] else [])

/-- The rest of the step in which a telemetry frame was accepted (R100): dropped without a record in use (R101), else
decoded, with the reference error (R103, R125) or the events and the throttle-presence update (R122, R123). -/
def acceptFrame (P : NumParams α) (s : State α) : State α :=
  match recordOf s.escId s.nEsc with
  | none => s.deliver { parser := some .pTelemetry, result := some .nothing }
  | some e =>
    match decodeFrame P e s with
    | (s', .noReference) => s'.raise .noReference { parser := some .pTelemetry, decoded := some .noReference }
    | (s', .ok changed) =>
      s'.reportTp.deliver
        { parser := some .pTelemetry, decoded := some (.ok changed), result := some (.telemetry e changed),
          events := decodeEvents e changed s' }

/-- What the step does with the parser result (R100). -/
def actOn (P : NumParams α) (p : ParserResult) (s : State α) : State α :=
  match p with
  | .pNone => s.deliver { parser := some .pNone, result := some .nothing }
  | .pResponse r =>
    s.deliver { parser := some (.pResponse r), result := some (.response r), events := [.response r] }
  | .pChecksumError => s.raise .checksumMismatch { parser := some .pChecksumError }
  | .pTelemetry => acceptFrame P s

/-- One `BYTE(b)` step: `feed(b)`, then the action on its result (R100). -/
def byteStep (P : NumParams α) (b : Byte) (s : State α) : State α := actOn P (feed b s).2 (feed b s).1

/-- A run of `BYTE` steps in ascending order, "each byte yields its own result" (R135). -/
def byteSteps (P : NumParams α) : List Byte → State α → State α
  | [], s => s.withOut []
  | b :: bs, s =>
    let t := byteStep P b s
    let u := byteSteps P bs t
    u.withOut (t.out ++ u.out)

/-- `INGEST` (R100). -/
def runIngest (P : NumParams α) (b : Byte) (s : State α) : State α := byteStep P b s

end Sys2Proof.Machine.Block

/-! ### The meanings in the configured number format -/

namespace Sys2Proof.Machine

@[inherit_doc Block.runIngest]
def execIngest (b : Byte) (s : State) : Answer := .next (Block.runIngest configured b s)

end Sys2Proof.Machine
end

