-- ==== Sys2Proof/Machine/Frames.lean ====
section
/-! DEFINITION. The frame-level operations (R91, R92, R85): a frame is the run of the `BYTE` steps of its bytes.  Where
the parser does not expect a header its bytes are taken as the position says (R169). -/

namespace Sys2Proof.Machine.Block

variable {α : Type}

/-- `TELEMETRY`: the 25 bytes of the frame (R61, R91). -/
def runTelemetry (P : NumParams α) (tp : Bool) (esc : EscId) (ticks : Ticks) (ck : Byte) (s : State α) : State α :=
  byteSteps P (telemetryBytes tp esc ticks ck) s

/-- `RESPONSE`: the 2 bytes of the frame (R63, R92). -/
def runResponse (P : NumParams α) (r : Bool) (s : State α) : State α := byteSteps P (responseBytes r) s

/-- `FRAMING_ERROR`: the 2 bytes of a pair that matches neither frame kind (R68, R85). -/
def runFramingError (P : NumParams α) (h l : Byte) (s : State α) : State α := byteSteps P [h, l] s

end Sys2Proof.Machine.Block

/-! ### The meanings in the configured number format -/

namespace Sys2Proof.Machine

@[inherit_doc Block.runTelemetry]
def execTelemetry (tp : Bool) (esc : EscId) (ticks : Ticks) (ck : Byte) (s : State) : Answer :=
  .next (Block.runTelemetry configured tp esc ticks ck s)

@[inherit_doc Block.runResponse]
def execResponse (r : Bool) (s : State) : Answer := .next (Block.runResponse configured r s)

@[inherit_doc Block.runFramingError] def execFramingError (h l : Byte) (s : State) : Answer :=
  .next (Block.runFramingError configured h l s)

end Sys2Proof.Machine
end

