-- ==== Sys2Proof/Machine/HostOps.lean ====
section
/-! DEFINITION. The host operations (R131, R132, R160) and the read ports (R133, R134). -/

namespace Sys2Proof.Machine.Block

variable {α : Type}

/-- The reading table at the start of a session: `c` records in use, and both records, in use or not, unwritten and with
the default pole count (R131). -/
def State.resetTable (c : EscCount) (s : State α) : State α := { s with nEsc := c, readings := Vector.replicate 2 {} }

/-- `TABLE_RESET(n)` (R131): for `n` of 1 or 2 both records become unwritten with the default pole count; otherwise
`INVALID_ARGUMENT`, "no state change at all". -/
def runTableReset (n : Int) (s : State α) : State α :=
  match countOf n with
  | some c => (s.resetTable c).deliver { result := some .ok }
  | none => s.raise .invalidArgument {}

/-- `SET_POLES(e, p)` (R132). -/
def runSetPoles (e : Nat) (p : Byte) (s : State α) : State α :=
  match poleTarget e p s.nEsc with
  | some i => (s.setRecord i { s.record i with poles := p }).deliver { result := some .ok }
  | none => s.raise .invalidArgument {}

/-- `RESET` (R160): every element of the state to its reset value.  The input still to come and the count of free
values are the model's own and stay (log entries 1 and 5). -/
def runReset (s : State α) : State α :=
  ((State.initial.withInput s.input).withFree s.free).deliver { result := some .ok }

/-- The port value of a field that may be unwritten, given the free value that an unwritten one yields, and how many
free values the read uses up (R133, U2). -/
def shown {β : Type} (show' : β → PortValue α) (open' : β) : Option β → PortValue α × Nat
  | some v => (show' v, 0)
  | none => (show' open', 1)

/-- `READING[e].F` on its port: any value while `W_F == 0` (R133, U2; log entry 5). -/
def fieldValue (P : NumParams α) (r : Reading α) (k : Nat) : Field → PortValue α × Nat
  | .voltage => shown .num (P.unwritten k) r.voltage
  | .rippleVoltage => shown .num (P.unwritten k) r.rippleVoltage
  | .current => shown .num (P.unwritten k) r.current
  | .throttle => shown .num (P.unwritten k) r.throttle
  | .outputPower => shown .int (Config.unwrittenInt k) r.outputPower
  | .erpm => shown .int (Config.unwrittenInt k) r.erpm
  | .becVoltage => shown .num (P.unwritten k) r.becVoltage
  | .becCurrent => shown .num (P.unwritten k) r.becCurrent
  | .temperature => shown .num (P.unwritten k) r.temperature

/-- `SHAFT_RPM[e] = ERPM / (POLES / 2)`: the inner quotient is of integers, the outer one of `NUM` (R134).  Without
`W_ERPM` it has no value; nor has it with a `POLES` below 2, which no run reaches (R132; log entry 17). -/
def shaftRpm (f : NumFormat α) (r : Reading α) : Option α :=
  match r.erpm with
  | some z => if r.poles.toNat / 2 = 0 then none else some (f.div (f.ofInt z) (f.ofInt (r.poles.toNat / 2 : Nat)))
  | none => none

/-- What a port shows, and how many free values the read uses up (R133, R134). -/
def portValue (P : NumParams α) (s : State α) : Port → PortValue α × Nat
  | .nEsc => (.count s.nEsc, 0)
  | .tpReported => (.bit s.tpReported, 0)
  | .field e f => fieldValue P (s.record e) s.free f
  | .written e f => (.bit (writtenBit (s.record e) f), 0)
  | .poles e => (.poles (s.record e).poles, 0)
  | .shaftRpm e => shown .num (P.unwritten s.free) (shaftRpm P.num (s.record e))

/-- `READ` of a port: "free of side effects" on the block; the model delivers the value (R133; log entry 12). -/
def runRead (P : NumParams α) (p : Port) (s : State α) : State α :=
  (s.withFree (s.free + (portValue P s p).2)).deliver { port := some (portValue P s p).1 }

end Sys2Proof.Machine.Block

/-! ### The meanings in the configured number format -/

namespace Sys2Proof.Machine

@[inherit_doc Block.runTableReset]
def execTableReset (n : Int) (s : State) : Answer := .next (Block.runTableReset n s)

@[inherit_doc Block.runSetPoles]
def execSetPoles (e : Nat) (p : Byte) (s : State) : Answer := .next (Block.runSetPoles e p s)

@[inherit_doc Block.runReset] def execReset (s : State) : Answer := .next (Block.runReset s)

@[inherit_doc Block.runRead]
def execRead (p : Port) (s : State) : Answer := .next (Block.runRead configured p s)

end Sys2Proof.Machine
end

