-- ==== Sys2Proof/Machine/Dispatch.lean ====
section
/-! DEFINITION. Dispatch: one arm per operation. -/

namespace Sys2Proof.Machine

def exec (i : Instr) (s : State) : Host.Outcome State Fault Refusal :=
  match i with
  | .telemetry tp esc ticks ck => Sys2Proof.Machine.execTelemetry tp esc ticks ck s
  | .response r => Sys2Proof.Machine.execResponse r s
  | .framingError h l => Sys2Proof.Machine.execFramingError h l s
  | .hdrHi b => Sys2Proof.Machine.execHdrHi b s
  | .hdrLo b => Sys2Proof.Machine.execHdrLo b s
  | .hdrLoTelemetry b => Sys2Proof.Machine.execHdrLoTelemetry b s
  | .hdrLoResponse b => Sys2Proof.Machine.execHdrLoResponse b s
  | .hdrLoFraming b => Sys2Proof.Machine.execHdrLoFraming b s
  | .dataHi b => Sys2Proof.Machine.execDataHi b s
  | .dataLo b => Sys2Proof.Machine.execDataLo b s
  | .cksumMatch b => Sys2Proof.Machine.execCksumMatch b s
  | .cksumMismatch b => Sys2Proof.Machine.execCksumMismatch b s
  | .ingest b => Sys2Proof.Machine.execIngest b s
  | .decode e => Sys2Proof.Machine.execDecode e s
  | .chVoltage e => Sys2Proof.Machine.execChVoltage e s
  | .chRippleVoltage e => Sys2Proof.Machine.execChRippleVoltage e s
  | .chCurrent e => Sys2Proof.Machine.execChCurrent e s
  | .chThrottle e => Sys2Proof.Machine.execChThrottle e s
  | .chOutputPower e => Sys2Proof.Machine.execChOutputPower e s
  | .chRpm e => Sys2Proof.Machine.execChRpm e s
  | .chBecVoltage e => Sys2Proof.Machine.execChBecVoltage e s
  | .chBecCurrent e => Sys2Proof.Machine.execChBecCurrent e s
  | .chTemperature e => Sys2Proof.Machine.execChTemperature e s
  | .tableReset n => Sys2Proof.Machine.execTableReset n s
  | .setPoles e p => Sys2Proof.Machine.execSetPoles e p s
  | .reset => Sys2Proof.Machine.execReset s
  | .read p => Sys2Proof.Machine.execRead p s

end Sys2Proof.Machine
end

