-- ==== Sys2Proof/Machine/Fetch.lean ====
section
/-! DEFINITION. Taking the next item of the input sequence (R41, R49, R130; log entries 1 and 6). -/

namespace Sys2Proof.Machine

/-- What is left of a byte array goes back to the head of the input; an empty array is no item at all. -/
def pushBytes (bs : List Byte) (rest : List Input) : List Input :=
  match bs with
  | [] => rest
  | b :: bs => .bytes (b :: bs) :: rest

/-- The next operation of an input sequence and the input left after it; none when no input event is left. -/
def nextInput : List Input → Option (Instr × List Input)
  | [] => none
  | x :: rest =>
    match decodeInput x with
    | some (i, bs) => some (i, pushBytes bs rest)
    | none => nextInput rest

/-- The model's waiting step: no input event is left, so nothing happens and nothing is delivered (R152, R170; log
entry 1). -/
def Block.runWait {α : Type} (s : Block.State α) : Block.State α := (s.withInput []).withOut []
@[inherit_doc Block.runWait] def waitStep (s : State) : Answer := .next (Block.runWait s)

/-- The input with the table's word at its head. -/
def placeWord (nbits w : Nat) (rest : List Input) : List Input := tableInput nbits w :: rest

end Sys2Proof.Machine
end

