-- ==== Sys2Proof/Machine/Step.lean ====
section
/-! DEFINITION. One step of the machine. -/

namespace Sys2Proof.Machine

/-- One step: the next input item's operation runs, that item taken from the input (R8).  With no input left the block
waits, without limit (R152, R170), and delivers nothing (log entry 1). -/
def step (s : State) : Host.Outcome State Fault Refusal :=
  match nextInput s.input with
  | none => waitStep s
  | some (i, rest) => exec i (s.withInput rest)

/-- `s` with the table's word at the head of its input (log entry 16). -/
def State.withFetchWord (s : State) (nbits w : Nat) : State := s.withInput (placeWord nbits w s.input)

end Sys2Proof.Machine
end

