-- ==== Sys2Proof/Machine/AnyFormat.lean ====
section
/-! DEFINITION. The block for any number format: `NUM` as a configuration argument (R127, D8, U4). -/

namespace Sys2Proof.Machine.Block

variable {α : Type}

/-- Each operation in the number format that `P` gives.  `exec` is this at the configured one (`exec_eq_runAt` of
Laws/Step.lean). -/
def runAt (P : NumParams α) (i : Instr) (s : State α) : State α :=
  match i with
  | .telemetry tp esc ticks ck => runTelemetry P tp esc ticks ck s
  | .response r => runResponse P r s
  | .framingError h l => runFramingError P h l s
  | .hdrHi b => runHdrHi b s
  | .hdrLo b => runHdrLo b s
  | .hdrLoTelemetry b => runHdrLoTelemetry b s
  | .hdrLoResponse b => runHdrLoResponse b s
  | .hdrLoFraming b => runHdrLoFraming b s
  | .dataHi b => runDataHi b s
  | .dataLo b => runDataLo b s
  | .cksumMatch b => runCksumMatch b s
  | .cksumMismatch b => runCksumMismatch b s
  | .ingest b => runIngest P b s
  | .decode e => runDecode P e s
  | .chVoltage e => runChVoltage P e s
  | .chRippleVoltage e => runChRippleVoltage P e s
  | .chCurrent e => runChCurrent P e s
  | .chThrottle e => runChThrottle P e s
  | .chOutputPower e => runChOutputPower P e s
  | .chRpm e => runChRpm P e s
  | .chBecVoltage e => runChBecVoltage P e s
  | .chBecCurrent e => runChBecCurrent P e s
  | .chTemperature e => runChTemperature P e s
  | .tableReset n => runTableReset n s
  | .setPoles e p => runSetPoles e p s
  | .reset => runReset s
  | .read p => runRead P p s

/-- One step in the number format that `P` gives.  `step` is this at the configured one (`step_eq_stepAt` of
Laws/Step.lean). -/
def stepAt (P : NumParams α) (s : State α) : State α :=
  match nextInput s.input with
  | none => runWait s
  | some (i, rest) => runAt P i (s.withInput rest)

end Sys2Proof.Machine.Block
end

