-- ==== Sys2Proof/Safety.lean ====
section
/-! DEFINITION. What counts as a safe state, in the terms that claims use: the invariants of R29 and R133, the ranges of
the integer fields (R21), what the running checksum means (R66, R88), and what a consumer can tell apart (R27). -/

namespace Sys2Proof.Machine

/-- No value field of the record has been written since the last table reset (R22). -/
def Block.Reading.unwritten {α : Type} (r : Block.Reading α) : Prop := ∀ f : Field, writtenBit r f = false

/-- The invariants of R29, with R133's "fields of a record with `e >= N_ESC` ... have all written bits 0". -/
structure Block.State.Inv {α : Type} (s : Block.State α) : Prop where
  /-- `0 <= CNT <= 24`. -/
  cntBound : s.cnt ≤ 24
  /-- `CNT >= 2` implies `KIND = TELEMETRY`. -/
  inFrame : 2 ≤ s.cnt → s.kind = .telemetry
  /-- Each `POLES` is even and at least 2. -/
  polesLegal : ∀ e : RecIdx, (s.record e).poles.toNat % 2 = 0 ∧ 2 ≤ (s.record e).poles.toNat
  /-- A record not in use is unwritten. -/
  unusedUnwritten : ∀ e : RecIdx, s.nEsc.val ≤ e.val → (s.record e).unwritten

/-- The ranges of the integer fields (R21). -/
structure Block.State.Ranges {α : Type} (s : Block.State α) : Prop where
  /-- `ERPM`. -/
  erpm : ∀ (e : RecIdx) (z : Int), (s.record e).erpm = some z → -1337988018 ≤ z ∧ z ≤ 1338008435
  /-- `OUTPUT_POWER`. -/
  outputPower : ∀ (e : RecIdx) (z : Int), (s.record e).outputPower = some z → -1639661 ≤ z ∧ z ≤ 1639686

/-- The bytes of the frame in progress that the parser has consumed after the header was accepted, rebuilt from the
header fields, the ticks stored so far and the held byte (R61, R87). -/
def Block.State.consumed {α : Type} (s : Block.State α) : List Byte :=
  (coveredBytes s.tp s.escId s.ticks).take (2 * (s.cnt / 2)) ++ if s.cnt % 2 = 1 then [s.hi] else []

/-- What `CK` means (R66, R81, R88): after the first byte it is that byte, and inside a telemetry frame it is the XOR of
the bytes consumed, so at `CNT = 24` the XOR of the 24 bytes at positions 0 to 23. -/
structure Block.State.CkMeans {α : Type} (s : Block.State α) : Prop where
  /-- After the first byte of a header. -/
  seeded : s.cnt = 1 → s.ck = s.hi
  /-- Inside a telemetry frame. -/
  accumulated : 2 ≤ s.cnt → s.cnt ≤ 24 → s.ck = xorAll s.consumed

/-- Two states that differ, in the parser group, only in elements that are written again before any rule reads them
(R27, D4): what was delivered last is not compared. -/
structure Block.State.Alike {α : Type} (s t : Block.State α) : Prop where
  cnt : s.cnt = t.cnt
  hi : s.cnt % 2 = 1 → s.hi = t.hi
  ck : 1 ≤ s.cnt → s.ck = t.ck
  escId : 2 ≤ s.cnt → s.escId = t.escId
  tp : 2 ≤ s.cnt → s.tp = t.tp
  ticks : ∀ i : Fin 11, 3 + 2 * i.val < s.cnt → s.ticks[i] = t.ticks[i]
  nEsc : s.nEsc = t.nEsc
  readings : s.readings = t.readings
  tpReported : s.tpReported = t.tpReported
  input : s.input = t.input
  free : s.free = t.free

/-! ### Terms of the claims -/

/-- What a `BYTE` step delivers when it completes no frame: parser result `P_NONE`, result `NONE`, no event (R100). -/
def Output.quiet : Output := { parser := some .pNone, result := some .nothing }

/-- `(T[i] - min(T[9], T[10])) / T[0]`, by tick index (R104, R106). -/
def Block.State.normalized {α : Type} (s : Block.State α) (i : Fin 11) : ℚ :=
  ((s.ticks[i].toNat : ℚ) - ((min s.ticks[9].toNat s.ticks[10].toNat : ℕ) : ℚ)) / (s.ticks[0].toNat : ℚ)

/-- `|T[9] - T[10]| / T[0]`, the normalised value of the selected temperature role (R116). -/
def Block.State.tempNorm {α : Type} (s : Block.State α) : ℚ :=
  ((max s.ticks[9].toNat s.ticks[10].toNat - min s.ticks[9].toNat s.ticks[10].toNat : ℕ) : ℚ) / (s.ticks[0].toNat : ℚ)

/-- `(T[i] - min(T[9], T[10])) / T[0]` in a number format (R106, R126): an integer difference, divided in the format. -/
def Block.State.normalizedIn {α : Type} (f : NumFormat α) (s : Block.State α) (i : Fin 11) : α :=
  f.div (f.ofInt ((s.ticks[i].toNat : ℤ) - ((min s.ticks[9].toNat s.ticks[10].toNat : ℕ) : ℤ)))
    (f.ofInt (s.ticks[0].toNat : ℤ))

/-- `(max(T[9], T[10]) - min(T[9], T[10])) / T[0]` in a number format (R116). -/
def Block.State.tempNormIn {α : Type} (f : NumFormat α) (s : Block.State α) : α :=
  f.div (f.ofInt ((max s.ticks[9].toNat s.ticks[10].toNat : ℕ) - ((min s.ticks[9].toNat s.ticks[10].toNat : ℕ) : ℤ)))
    (f.ofInt (s.ticks[0].toNat : ℤ))

/-- R118's formula in a number format, each operation as printed. -/
def formulaIn {α : Type} (f : NumFormat α) (n : α) : α :=
  let d := f.mul n (f.literal 63.8125)
  let x := f.div (f.div (f.mul d (f.literal 10200)) (f.sub (f.literal 255) d)) (f.literal 10000)
  f.sub (f.div (f.literal 1) (f.add (f.div (f.ln x) (f.literal 3455)) (f.div (f.literal 1) (f.literal 298.15))))
    (f.literal 273.15)

/-- The value of R118's formula at a normalised value `n`. -/
def formulaAt (n : ℚ) (r : ℝ) : Prop :=
  r = 1 / (Real.log ((n : ℝ) * 63.8125 * 10200 / (255 - (n : ℝ) * 63.8125) / 10000) / 3455 + 1 / 298.15) - 273.15

/-- The state after a decode that left record `e` as `r` and used no free value: nothing else is different, and the change
flag says whether the record is. -/
def State.wrote (e : RecIdx) (r : Reading) (s : State) : State :=
  { s with readings := s.readings.set e r, out := [{ decoded := some (.ok (decide (r ≠ s.record e))) }] }

/-- The ten rows that decode into a record, each for record `e`. -/
def decodeRows (e : RecIdx) : List Instr :=
  [.decode e, .chVoltage e, .chRippleVoltage e, .chCurrent e, .chThrottle e, .chOutputPower e, .chRpm e,
   .chBecVoltage e, .chBecCurrent e, .chTemperature e]

end Sys2Proof.Machine
end

