-- ==== Sys2Proof/WellFormed.lean ====
section
/-! DEFINITION. Well-formed operations.  The operand types already bound every field (R6, U7); the one check left is
that a failed pair is one (R67, R68).  A wrong checksum byte, an ESC identifier without a record, an odd pole count and
the like are well formed: the spec gives each of them an effect. -/

namespace Sys2Proof

/-- An operation as the opcode table can name it. -/
def Instr.wellFormed : Instr → Bool
  | .framingError h l => !isTelemetryHeader h l && !isResponseHeader h l
  | .telemetry _ _ _ _ => true
  | .response _ => true
  | .hdrHi _ => true
  | .hdrLo _ => true
  | .hdrLoTelemetry _ => true
  | .hdrLoResponse _ => true
  | .hdrLoFraming _ => true
  | .dataHi _ => true
  | .dataLo _ => true
  | .cksumMatch _ => true
  | .cksumMismatch _ => true
  | .ingest _ => true
  | .decode _ => true
  | .chVoltage _ => true
  | .chRippleVoltage _ => true
  | .chCurrent _ => true
  | .chThrottle _ => true
  | .chOutputPower _ => true
  | .chRpm _ => true
  | .chBecVoltage _ => true
  | .chBecCurrent _ => true
  | .chTemperature _ => true
  | .tableReset _ => true
  | .setPoles _ _ => true
  | .reset => true
  | .read _ => true

end Sys2Proof
end

