-- ==== Sys2Proof/Certificates/Slice0/Obligations.lean ====
section
/-! DEFINITION. The statements for the provers. -/

open Sys2Proof Sys2Proof.Machine

/-! ### The per-byte parser operations -/

/-- R81: `HDR_HI` holds the first byte of a pair as high byte and checksum seed, and changes nothing else. -/
def Obligations.FirstHeaderByteHeldUntested : Prop :=
  ∀ (s : State) (b : Byte), s.cnt = 0 →
    exec (.hdrHi b) s = .next { s with hi := b, ck := b, cnt := 1, out := [{ parser := some .pNone }] }

/-- R83: a telemetry header sets the frame's tags and goes on with the checksum; nothing else changes. -/
def Obligations.TelemetryHeaderSetsTags : Prop :=
  ∀ (s : State) (b : Byte), s.cnt = 1 → s.hi = 0xFF#8 → b.toNat / 16 = 15 →
    exec (.hdrLoTelemetry b) s = .next
      { s with kind := .telemetry, escId := BitVec.ofNat 3 (b.toNat % 8), tp := decide (b.toNat / 8 % 2 = 1),
               ck := s.ck ^^^ b, cnt := 2, out := [{ parser := some .pNone }] }

/-- R84: a response header completes a response frame; nothing else changes. -/
def Obligations.ResponseHeaderCompletesFrame : Prop :=
  ∀ (s : State) (b : Byte), s.cnt = 1 → s.hi = 0x55#8 → b.toNat / 2 = 85 →
    exec (.hdrLoResponse b) s = .next
      { s with kind := .response, resp := decide (b.toNat % 2 = 1), cnt := 0,
               out := [{ parser := some (.pResponse (decide (b.toNat % 2 = 1))) }] }

/-- R85 with R90: any other header pair clears the parser group, silently, and touches nothing outside it.  That
"empty" is all zero is the spec's decision D4. -/
def Obligations.FailedPairClearsParser : Prop :=
  ∀ (s : State) (b : Byte), s.cnt = 1 → ¬(s.hi = 0xFF#8 ∧ b.toNat / 16 = 15) → ¬(s.hi = 0x55#8 ∧ b.toNat / 2 = 85) →
    exec (.hdrLoFraming b) s = .next
      { s with cnt := 0, hi := 0#8, ck := 0#8, kind := .noFrame, escId := 0#3, tp := false, resp := false,
               ticks := Vector.replicate 11 0#16, out := [{ parser := some .pNone }] }

/-- R82: `HDR_LO` classifies the pair and does exactly one of three things, the telemetry test first: each is the row of
its outcome, told by the kind, the counter and the parser result that it leaves. -/
def Obligations.HeaderPairClassifiedOneOfThree : Prop :=
  ∀ (s : State) (b : Byte), s.cnt = 1 →
    ∃ t, exec (.hdrLo b) s = .next t ∧
      if s.hi = 0xFF#8 ∧ b &&& 0xF0#8 = 0xF0#8 then
        exec (.hdrLoTelemetry b) s = .next t ∧ t.kind = .telemetry ∧ t.cnt = 2 ∧ t.out = [{ parser := some .pNone }]
      else if s.hi = 0x55#8 ∧ b &&& 0xFE#8 = 0xAA#8 then
        exec (.hdrLoResponse b) s = .next t ∧ t.kind = .response ∧ t.cnt = 0 ∧
          t.out = [{ parser := some (.pResponse (decide (b.toNat % 2 = 1))) }]
      else
        exec (.hdrLoFraming b) s = .next t ∧ t.kind = .noFrame ∧ t.cnt = 0 ∧ t.out = [{ parser := some .pNone }]

/-- R86: `DATA_HI` holds the byte and goes on with the checksum; nothing else changes. -/
def Obligations.DataHighByteHeld : Prop :=
  ∀ (s : State) (b : Byte), 2 ≤ s.cnt → s.cnt ≤ 22 → s.cnt % 2 = 0 →
    exec (.dataHi b) s = .next
      { s with hi := b, ck := s.ck ^^^ b, cnt := s.cnt + 1, out := [{ parser := some .pNone }] }

/-- R87: `DATA_LO` stores `HI * 256 + b` in the tick of the pair's position and in no other.  The combination is the
spec's decision D3. -/
def Obligations.DataLowByteStoresOneTick : Prop :=
  ∀ (s : State) (b : Byte), 3 ≤ s.cnt → s.cnt ≤ 23 → s.cnt % 2 = 1 →
    ∃ t, exec (.dataLo b) s = .next t ∧
      (∀ j : Fin 11, t.ticks[j].toNat =
        if 2 * j.val + 3 = s.cnt then s.hi.toNat * 256 + b.toNat else s.ticks[j].toNat) ∧
      t = { s with ticks := t.ticks, ck := s.ck ^^^ b, cnt := s.cnt + 1, out := [{ parser := some .pNone }] }

/-- R88: a matching checksum byte completes the frame and writes `CNT` only. -/
def Obligations.ChecksumMatchWritesOnlyCnt : Prop :=
  ∀ (s : State) (b : Byte), s.cnt = 24 → b = s.ck →
    exec (.cksumMatch b) s = .next { s with cnt := 0, out := [{ parser := some .pTelemetry }] }

/-- R89 with R90: another checksum byte clears the parser group and reports it; nothing outside the group changes.  That
"empty" is all zero is the spec's decision D4. -/
def Obligations.ChecksumMismatchClearsParser : Prop :=
  ∀ (s : State) (b : Byte), s.cnt = 24 → b ≠ s.ck →
    exec (.cksumMismatch b) s = .next
      { s with cnt := 0, hi := 0#8, ck := 0#8, kind := .noFrame, escId := 0#3, tp := false, resp := false,
               ticks := Vector.replicate 11 0#16, out := [{ parser := some .pChecksumError }] }

/-- R80: the block, not the host, selects the operation that a byte runs.  A per-byte row asked for where its selector
does not hold runs the selected one: the model's choice (log entry 7). -/
def Obligations.ByteRunsTheSelectedOperation : Prop :=
  ∀ (s : State) (b : Byte),
    ∀ i ∈ ([.hdrHi b, .hdrLo b, .hdrLoTelemetry b, .hdrLoResponse b, .hdrLoFraming b, .dataHi b, .dataLo b,
            .cksumMatch b, .cksumMismatch b] : List Instr),
      exec i s = exec (selectOp s.cnt s.hi s.ck b) s ∧ ∃ t, exec i s = .next t

/-! ### The ingest stage -/

/-- The transition table of `CNT` with the parser result of each row (section 9 of 40_frame_parser.md, derived there from
R81 to R89). -/
def Obligations.ByteCounterTransitionTable : Prop :=
  ∀ (s : State) (b : Byte), s.cnt ≤ 24 →
    ∃ t o, exec (.ingest b) s = .next t ∧ t.out = [o] ∧
      (s.cnt = 0 → t.cnt = 1 ∧ o.parser = some .pNone) ∧
      (s.cnt = 1 → s.hi = 0xFF#8 ∧ 240 ≤ b.toNat → t.cnt = 2 ∧ o.parser = some .pNone) ∧
      (s.cnt = 1 → s.hi = 0x55#8 ∧ (b.toNat = 170 ∨ b.toNat = 171) →
        t.cnt = 0 ∧ o.parser = some (.pResponse (decide (b.toNat = 171)))) ∧
      (s.cnt = 1 → ¬(s.hi = 0xFF#8 ∧ 240 ≤ b.toNat) → ¬(s.hi = 0x55#8 ∧ (b.toNat = 170 ∨ b.toNat = 171)) →
        t.cnt = 0 ∧ o.parser = some .pNone) ∧
      (2 ≤ s.cnt → s.cnt ≤ 23 → t.cnt = s.cnt + 1 ∧ o.parser = some .pNone) ∧
      (s.cnt = 24 → b = s.ck → t.cnt = 0 ∧ o.parser = some .pTelemetry) ∧
      (s.cnt = 24 → b ≠ s.ck → t.cnt = 0 ∧ o.parser = some .pChecksumError)

/-- A byte that completes no telemetry frame touches the parser group only, and delivers nothing unless it completes a
response frame (R100 with section 3 of 41_telemetry_decoder.md; R141 for the silent framing error). -/
def Obligations.UnfinishedFrameTouchesOnlyParser : Prop :=
  ∀ (s : State) (b : Byte), s.cnt ≤ 23 →
    ∃ t, exec (.ingest b) s = .next t ∧ t.nEsc = s.nEsc ∧ t.readings = s.readings ∧ t.tpReported = s.tpReported ∧
      t.input = s.input ∧ t.free = s.free ∧
      (¬(s.cnt = 1 ∧ s.hi = 0x55#8 ∧ b.toNat / 2 = 85) → t.out = [Output.quiet])

/-- R124: the response event, in every step whose parser result is `P_RESPONSE(r)`, whatever `N_ESC` is; and the step of
a response header, in which nothing outside the parser group changes. -/
def Obligations.ResponseRaisesItsEvent : Prop :=
  (∀ (s t : State) (b : Byte) (o : Output) (r : Bool), exec (.ingest b) s = .next t → t.out = [o] →
    o.parser = some (.pResponse r) → o.result = some (.response r) ∧ o.events = [.response r]) ∧
  ∀ (s : State) (b : Byte), s.cnt = 1 → s.hi = 0x55#8 → b.toNat / 2 = 85 →
    exec (.ingest b) s = .next
      { s with kind := .response, resp := decide (b.toNat % 2 = 1), cnt := 0,
               out := [{ parser := some (.pResponse (decide (b.toNat % 2 = 1))),
                         result := some (.response (decide (b.toNat % 2 = 1))),
                         events := [.response (decide (b.toNat % 2 = 1))] }] }

/-- A checksum mismatch is surfaced as result and event, clears the parser group, and leaves readings, `N_ESC` and
`TP_REPORTED` as they are, whatever the frame is addressed to and whatever its reference (R89, R142, R148, R149). -/
def Obligations.ChecksumMismatchSurfaced : Prop :=
  ∀ (s : State) (b : Byte), s.cnt = 24 → b ≠ s.ck →
    exec (.ingest b) s = .next
      { s with cnt := 0, hi := 0#8, ck := 0#8, kind := .noFrame, escId := 0#3, tp := false, resp := false,
               ticks := Vector.replicate 11 0#16,
               out := [{ parser := some .pChecksumError, result := some (.error .checksumMismatch),
                         events := [.error .checksumMismatch] }] }

/-- A valid frame whose ESC identifier names no record in use is dropped without result, event or state change, its
reference not tested: the spec's decision D6. -/
def Obligations.FrameWithoutRecordDropped : Prop :=
  ∀ (s : State) (b : Byte), s.cnt = 24 → b = s.ck → s.nEsc.val ≤ s.escId.toNat →
    exec (.ingest b) s = .next
      { s with cnt := 0, out := [{ parser := some .pTelemetry, result := some .nothing }] }

/-- R103: a zero reference ends a decode before anything is written, the parser group keeping the frame; the test is
made after routing (that a frame without a record is dropped is the spec's decision D6). -/
def Obligations.ZeroReferenceEndsDecode : Prop :=
  ∀ (s : State) (b : Byte), s.cnt = 24 → b = s.ck → s.ticks[0] = 0#16 →
    exec (.ingest b) s = .next
      (if s.escId.toNat < s.nEsc.val then
        { s with cnt := 0,
                 out := [{ parser := some .pTelemetry, decoded := some .noReference,
                           result := some (.error .noReference), events := [.error .noReference] }] }
      else { s with cnt := 0, out := [{ parser := some .pTelemetry, result := some .nothing }] })

/-- An accepted frame addressed to a record in use with a reference is decoded in the same step: the state is that of
`DECODE` with `TP_REPORTED` set to the frame's `TP`, and the events are `DATA_UPDATED` if something changed and then
`TP_CHANGED` on a transition (R100, R122; the throttle-presence part is the spec's decision D14). -/
def Obligations.AcceptedFrameDecodedAndReported : Prop :=
  ∀ (s : State) (e : RecIdx), s.cnt = 24 → s.escId.toNat = e.val → e.val < s.nEsc.val → s.ticks[0] ≠ 0#16 →
    ∃ (u : State) (changed : Bool),
      exec (.decode e) { s with cnt := 0 } = .next u ∧ u.out = [{ decoded := some (.ok changed) }] ∧
      exec (.ingest s.ck) s = .next
        { u with
          tpReported := s.tp,
          out := [{ parser := some .pTelemetry, decoded := some (.ok changed), result := some (.telemetry e changed),
                    events := (if changed then [.dataUpdated e (u.record e)] else []) ++
                      (if s.tp ≠ s.tpReported then [.tpChanged s.tp] else []) }] }

/-- R122: `DATA_UPDATED` is raised in a step exactly when a decode returned `Ok(true)` in it, and carries the record's
contents after the update; after `Ok(false)` the result is `TELEMETRY(e, false)`. -/
def Obligations.DataUpdatedExactlyOnChange : Prop :=
  ∀ (s t : State) (b : Byte) (o : Output), exec (.ingest b) s = .next t → t.out = [o] →
    ((∃ e r, .dataUpdated e r ∈ o.events) ↔ o.decoded = some (.ok true)) ∧
    (∀ e r, .dataUpdated e r ∈ o.events → e.val = t.escId.toNat ∧ r = t.record e) ∧
    (o.decoded = some (.ok false) → ∃ e : RecIdx, e.val = t.escId.toNat ∧ o.result = some (.telemetry e false) ∧
      ∀ f r, .dataUpdated f r ∉ o.events)

/-- Throttle presence: `TP_REPORTED` takes the frame's `TP` after a decode that returned `Ok` and is written by no other
`BYTE` step, and `TP_CHANGED` is raised exactly on its transitions (section 6 of 41_telemetry_decoder.md; the spec's
decision D14). -/
def Obligations.ThrottlePresenceOnTransition : Prop :=
  ∀ (s t : State) (b : Byte) (o : Output), exec (.ingest b) s = .next t → t.out = [o] →
    ((∃ c, o.decoded = some (.ok c)) → t.tpReported = t.tp) ∧
    ((∀ c, o.decoded ≠ some (.ok c)) → t.tpReported = s.tpReported) ∧
    (∀ p, .tpChanged p ∈ o.events ↔ (t.tpReported ≠ s.tpReported ∧ p = t.tpReported))

/-- The combinations of events that one step can raise, in their order (section 2 of 60_exceptions.md; the spec's
decision D26). -/
def Obligations.EventCombinationsOfOneStep : Prop :=
  ∀ (s t : State) (b : Byte) (o : Output), exec (.ingest b) s = .next t → t.out = [o] →
    o.events = [] ∨ (∃ r, o.events = [.response r]) ∨
    o.events = [.error .checksumMismatch] ∨ o.events = [.error .noReference] ∨
    (∃ e r, o.events = [.dataUpdated e r]) ∨ (∃ p, o.events = [.tpChanged p]) ∨
    (∃ e r p, o.events = [.dataUpdated e r, .tpChanged p])

/-- In a `BYTE` step only an accepted frame addressed to a record in use, with a reference, changes a reading, and only that
record's value fields (R101, R103, R136: the reading is "mutated only by the Telemetry Decoder").  Of the other steps
`TABLE_RESET`, `RESET` and `SET_POLES` write the records as their own rules say (R131, R132, R160). -/
def Obligations.ByteStepChangesReadingsOnlyByDecode : Prop :=
  ∀ (s t : State) (b : Byte), s.cnt ≤ 24 → exec (.ingest b) s = .next t → t.readings ≠ s.readings →
    s.cnt = 24 ∧ b = s.ck ∧ s.ticks[0] ≠ 0#16 ∧
    ∃ e : RecIdx, e.val = s.escId.toNat ∧ e.val < s.nEsc.val ∧ (t.record e).poles = (s.record e).poles ∧
      ∀ f, f ≠ e → t.record f = s.record f

/-! ### The decoder -/

/-- Without a reference `DECODE` and the channel rows write nothing and answer `Err(NoReference)` (R103; for a channel
row on its own the model's choice, log entry 8). -/
def Obligations.NoReferenceWritesNothing : Prop :=
  ∀ (s : State) (e : RecIdx), s.ticks[0] = 0#16 →
    ∀ i ∈ decodeRows e, exec i s = .next { s with out := [{ decoded := some .noReference }] }

/-- The frame of `DECODE` and of the channel rows: they change one record's value fields, the model's count of free
values and what is delivered, and nothing else (R21, R102); and so they do in any number format (R127). -/
def Obligations.DecodeRowsTouchOneRecord : Prop :=
  (∀ (s : State) (e : RecIdx), ∀ i ∈ decodeRows e,
    ∃ t, exec i s = .next t ∧ t = { s with readings := t.readings, free := t.free, out := t.out } ∧
      (∀ f, f ≠ e → t.record f = s.record f) ∧ (t.record e).poles = (s.record e).poles) ∧
  ∀ (α : Type) (P : NumParams α) (s : Block.State α) (e : RecIdx), ∀ i ∈ decodeRows e,
    ∃ t, Block.runAt P i s = t ∧ t = { s with readings := t.readings, free := t.free, out := t.out } ∧
      (∀ f, f ≠ e → t.record f = s.record f) ∧ (t.record e).poles = (s.record e).poles

/-- `DECODE` writes the six linear channels: each populated one with its normalised value times its scale, each
unpopulated one left alone (R105, R108 to R111, R114, R115, over the offset and the signed difference of the spec's
decisions D10 and D11).  In any number format the same holds of the format's own operations, in the order printed
(R127, U4); that it multiplies THROTTLE by its constant 1, as R126 lists, is log entry 3. -/
def Obligations.DecodeWritesLinearChannels : Prop :=
  (∀ (s : State) (e : RecIdx), s.ticks[0] ≠ 0#16 →
    ∃ t, exec (.decode e) s = .next t ∧
      (t.record e).voltage = (if s.ticks[1] = 0#16 then (s.record e).voltage else some (.rat (s.normalized 1 * 20))) ∧
      (t.record e).rippleVoltage =
        (if s.ticks[2] = 0#16 then (s.record e).rippleVoltage else some (.rat (s.normalized 2 * 4))) ∧
      (t.record e).current = (if s.ticks[3] = 0#16 then (s.record e).current else some (.rat (s.normalized 3 * 50))) ∧
      (t.record e).throttle = (if s.ticks[4] = 0#16 then (s.record e).throttle else some (.rat (s.normalized 4))) ∧
      (t.record e).becVoltage = (if s.ticks[7] = 0#16 then (s.record e).becVoltage else some (.rat (s.normalized 7 * 4))) ∧
      (t.record e).becCurrent = (if s.ticks[8] = 0#16 then (s.record e).becCurrent else some (.rat (s.normalized 8 * 4)))) ∧
  ∀ (α : Type) (P : NumParams α) (s : Block.State α) (e : RecIdx), s.ticks[0] ≠ 0#16 →
    ∃ r, (Block.runAt P (.decode e) s).record e = r ∧
      r.voltage = (if s.ticks[1] = 0#16 then (s.record e).voltage
        else some (P.num.mul (s.normalizedIn P.num 1) (P.num.literal 20))) ∧
      r.rippleVoltage = (if s.ticks[2] = 0#16 then (s.record e).rippleVoltage
        else some (P.num.mul (s.normalizedIn P.num 2) (P.num.literal 4))) ∧
      r.current = (if s.ticks[3] = 0#16 then (s.record e).current
        else some (P.num.mul (s.normalizedIn P.num 3) (P.num.literal 50))) ∧
      r.throttle = (if s.ticks[4] = 0#16 then (s.record e).throttle
        else some (P.num.mul (s.normalizedIn P.num 4) (P.num.literal 1))) ∧
      r.becVoltage = (if s.ticks[7] = 0#16 then (s.record e).becVoltage
        else some (P.num.mul (s.normalizedIn P.num 7) (P.num.literal 4))) ∧
      r.becCurrent = (if s.ticks[8] = 0#16 then (s.record e).becCurrent
        else some (P.num.mul (s.normalizedIn P.num 8) (P.num.literal 4)))

/-- `DECODE` writes the two integer channels: each populated one with the integer part of its argument plus one half, the
spec's decision D9 for `ROUND` (R105, R112, R113).  In any number format it is the format's `ROUND` of its own products, those of
OUTPUT_POWER in the source's order (R112, R127). -/
def Obligations.DecodeWritesRoundedChannels : Prop :=
  (∀ (s : State) (e : RecIdx), s.ticks[0] ≠ 0#16 →
    ∃ t, exec (.decode e) s = .next t ∧
      (s.ticks[5] = 0#16 → (t.record e).outputPower = (s.record e).outputPower) ∧
      (s.ticks[5] ≠ 0#16 → ∃ z : ℤ, (t.record e).outputPower = some z ∧
        (z : ℚ) ≤ s.normalized 5 * (1251 / 50) + 1 / 2 ∧ s.normalized 5 * (1251 / 50) + 1 / 2 < z + 1) ∧
      (s.ticks[6] = 0#16 → (t.record e).erpm = (s.record e).erpm) ∧
      (s.ticks[6] ≠ 0#16 → ∃ z : ℤ, (t.record e).erpm = some z ∧
        (z : ℚ) ≤ s.normalized 6 * (204167 / 10) + 1 / 2 ∧ s.normalized 6 * (204167 / 10) + 1 / 2 < z + 1)) ∧
  ∀ (α : Type) (P : NumParams α) (s : Block.State α) (e : RecIdx), s.ticks[0] ≠ 0#16 →
    ∃ r, (Block.runAt P (.decode e) s).record e = r ∧
      r.outputPower = (if s.ticks[5] = 0#16 then (s.record e).outputPower
        else some (P.num.round
          (P.num.mul (P.num.mul (s.normalizedIn P.num 5) (P.num.literal 0.2502)) (P.num.literal 100)))) ∧
      r.erpm = (if s.ticks[6] = 0#16 then (s.record e).erpm
        else some (P.num.round (P.num.mul (s.normalizedIn P.num 6) (P.num.literal 20416.7))))

/-- `DECODE` writes the temperature of the selected role: untouched when neither is populated, -40 above 3.9, the
thermistor formula's real value up to it, and the open `THERM_AT_ZERO` at 0 (R116 to R119; the formula over the reals is
the spec's decision D8, the open value D13).  In any number format it is the same by the format's own comparison, equality
test and operations (R127); that 0 is what the format's equality test calls 0 is log entry 3. -/
def Obligations.DecodeWritesTemperature : Prop :=
  (∀ (s : State) (e : RecIdx), s.ticks[0] ≠ 0#16 →
    ∃ t, exec (.decode e) s = .next t ∧
      (s.ticks[9] = 0#16 → s.ticks[10] = 0#16 →
        (t.record e).temperature = (s.record e).temperature ∧ t.free = s.free) ∧
      (39 / 10 < s.tempNorm → (t.record e).temperature = some (.rat (-40)) ∧ t.free = s.free) ∧
      (0 < s.tempNorm → s.tempNorm ≤ 39 / 10 →
        ∃ v, (t.record e).temperature = some v ∧ (∀ r, denotes v r ↔ formulaAt s.tempNorm r) ∧ t.free = s.free) ∧
      (s.ticks[9] = s.ticks[10] → s.ticks[9] ≠ 0#16 →
        (t.record e).temperature = some (Config.thermAtZero s.free) ∧ t.free = s.free + 1)) ∧
  ∀ (α : Type) (P : NumParams α) (s : Block.State α) (e : RecIdx), s.ticks[0] ≠ 0#16 →
    ∃ r, (Block.runAt P (.decode e) s).record e = r ∧
      (s.ticks[9] = 0#16 → s.ticks[10] = 0#16 → r.temperature = (s.record e).temperature) ∧
      (¬(s.ticks[9] = 0#16 ∧ s.ticks[10] = 0#16) → r.temperature = some
        (if P.num.eq (s.tempNormIn P.num) (P.num.ofInt 0) then P.thermAtZero s.free
        else if P.num.gt (s.tempNormIn P.num) (P.num.literal 3.9) then P.num.literal (-40)
        else formulaIn P.num (s.tempNormIn P.num)))

/-- The rows of the linear channels on their own: each writes its own field if its role is populated, and its change flag
says whether the record became different (R105, R108 to R111, R114, R115, R120; a channel on its own is the model's
choice, log entry 8). -/
def Obligations.LinearChannelRows : Prop :=
  ∀ (s : State) (e : RecIdx), s.ticks[0] ≠ 0#16 →
    exec (.chVoltage e) s = .next (s.wrote e
      (if s.ticks[1] = 0#16 then s.record e else { s.record e with voltage := some (.rat (s.normalized 1 * 20)) })) ∧
    exec (.chRippleVoltage e) s = .next (s.wrote e
      (if s.ticks[2] = 0#16 then s.record e else { s.record e with rippleVoltage := some (.rat (s.normalized 2 * 4)) })) ∧
    exec (.chCurrent e) s = .next (s.wrote e
      (if s.ticks[3] = 0#16 then s.record e else { s.record e with current := some (.rat (s.normalized 3 * 50)) })) ∧
    exec (.chThrottle e) s = .next (s.wrote e
      (if s.ticks[4] = 0#16 then s.record e else { s.record e with throttle := some (.rat (s.normalized 4)) })) ∧
    exec (.chBecVoltage e) s = .next (s.wrote e
      (if s.ticks[7] = 0#16 then s.record e else { s.record e with becVoltage := some (.rat (s.normalized 7 * 4)) })) ∧
    exec (.chBecCurrent e) s = .next (s.wrote e
      (if s.ticks[8] = 0#16 then s.record e else { s.record e with becCurrent := some (.rat (s.normalized 8 * 4)) }))

/-- The rows of the two integer channels on their own (R112, R113, with the spec's decision D9 for `ROUND`; log
entry 8). -/
def Obligations.RoundedChannelRows : Prop :=
  ∀ (s : State) (e : RecIdx), s.ticks[0] ≠ 0#16 →
    (s.ticks[5] = 0#16 → exec (.chOutputPower e) s = .next (s.wrote e (s.record e))) ∧
    (s.ticks[5] ≠ 0#16 → ∃ z : ℤ,
      (z : ℚ) ≤ s.normalized 5 * (1251 / 50) + 1 / 2 ∧ s.normalized 5 * (1251 / 50) + 1 / 2 < z + 1 ∧
      exec (.chOutputPower e) s = .next (s.wrote e { s.record e with outputPower := some z })) ∧
    (s.ticks[6] = 0#16 → exec (.chRpm e) s = .next (s.wrote e (s.record e))) ∧
    (s.ticks[6] ≠ 0#16 → ∃ z : ℤ,
      (z : ℚ) ≤ s.normalized 6 * (204167 / 10) + 1 / 2 ∧ s.normalized 6 * (204167 / 10) + 1 / 2 < z + 1 ∧
      exec (.chRpm e) s = .next (s.wrote e { s.record e with erpm := some z }))

/-- The row of the temperature channel on its own (R116 to R119, R121, with the spec's decisions D8 and D13; log
entry 8).  At a tie of populated ticks the stored value is the open one, whatever it is. -/
def Obligations.TemperatureChannelRow : Prop :=
  ∀ (s : State) (e : RecIdx), s.ticks[0] ≠ 0#16 →
    (s.ticks[9] = 0#16 → s.ticks[10] = 0#16 → exec (.chTemperature e) s = .next (s.wrote e (s.record e))) ∧
    (39 / 10 < s.tempNorm →
      exec (.chTemperature e) s = .next (s.wrote e { s.record e with temperature := some (.rat (-40)) })) ∧
    (0 < s.tempNorm → s.tempNorm ≤ 39 / 10 → ∃ v, (∀ r, denotes v r ↔ formulaAt s.tempNorm r) ∧
      exec (.chTemperature e) s = .next (s.wrote e { s.record e with temperature := some v })) ∧
    (s.ticks[9] = s.ticks[10] → s.ticks[9] ≠ 0#16 →
      exec (.chTemperature e) s = .next
        { s.wrote e { s.record e with temperature := some (Config.thermAtZero s.free) } with free := s.free + 1 })

/-- The change flag of a decode says exactly whether the reading table became different, written bits included (R120;
written bits are the spec's decision D7). -/
def Obligations.ChangeFlagSaysTableChanged : Prop :=
  ∀ (s : State) (e : RecIdx), s.ticks[0] ≠ 0#16 →
    ∃ t, exec (.decode e) s = .next t ∧ t.out = [{ decoded := some (.ok (decide (t.readings ≠ s.readings))) }]

/-- "Decoding is idempotent for an unchanged frame": the second of two identical decodes in a row changes nothing and
returns `Ok(false)`, unless the open `THERM_AT_ZERO` is involved (R120, S4). -/
def Obligations.SecondDecodeChangesNothing : Prop :=
  ∀ (s : State) (e : RecIdx), s.ticks[0] ≠ 0#16 → ¬(s.ticks[9] = s.ticks[10] ∧ s.ticks[9] ≠ 0#16) →
    ∃ t, exec (.decode e) s = .next t ∧
      exec (.decode e) t = .next { t with out := [{ decoded := some (.ok false) }] }

/-- A decode looks at the ticks and the record's value fields only: it "never reads `POLES`, `N_ESC`, `TP` or
`TP_REPORTED`" (R102), nor the other record, nor the rest of the parser group. -/
def Obligations.DecodeReadsTicksAndRecordOnly : Prop :=
  ∀ (s s' : State) (e : RecIdx) (p : Byte), s'.ticks = s.ticks → s'.free = s.free →
    s'.record e = { s.record e with poles := p } →
    ∃ t t', exec (.decode e) s = .next t ∧ exec (.decode e) s' = .next t' ∧ t'.out = t.out ∧
      t'.record e = { t.record e with poles := p }

/-- The comparison of two thermistor temperatures as data is the comparison of the real numbers that they are: equal
temperatures come from equal normalised values.  Exact real equality is the spec's decision D8, and that the model's
data decides it is log entry 4. -/
def Obligations.ThermistorValuesCompareExactly : Prop :=
  ∀ m n : ℚ, 0 < m → m ≤ 39 / 10 → 0 < n → n ≤ 39 / 10 →
    ∀ r : ℝ, denotes (therm exactFormat (.rat m)) r → denotes (therm exactFormat (.rat n)) r → m = n

/-! ### Host operations and ports -/

/-- `TABLE_RESET(n)`: for `n` of 1 or 2 it sets `N_ESC` and makes both records unwritten with 2 poles; for any other `n` it
is refused with no state change.  It touches neither the parser group nor `TP_REPORTED` (R131, the spec's decision
D19). -/
def Obligations.TableResetClearsOrRefuses : Prop :=
  ∀ s : State,
    exec (.tableReset 1) s = .next
      { s with nEsc := 1, readings := #v[{ poles := 2#8 }, { poles := 2#8 }], out := [{ result := some .ok }] } ∧
    exec (.tableReset 2) s = .next
      { s with nEsc := 2, readings := #v[{ poles := 2#8 }, { poles := 2#8 }], out := [{ result := some .ok }] } ∧
    ∀ n : ℤ, n ≠ 1 → n ≠ 2 →
      exec (.tableReset n) s = .next { s with out := [{ result := some (.error .invalidArgument) }] }

/-- `SET_POLES(e, p)`: for a record in use and an even `p` of at least 2 it writes that record's pole count and nothing
else; otherwise it is refused with no state change (R132, the spec's decisions D17 and D20). -/
def Obligations.SetPolesWritesOrRefuses : Prop :=
  ∀ (s : State) (p : Byte),
    (∀ e : RecIdx, e.val < s.nEsc.val → p.toNat % 2 = 0 → 2 ≤ p.toNat →
      exec (.setPoles e.val p) s = .next
        { s with readings := s.readings.set e { s.record e with poles := p }, out := [{ result := some .ok }] }) ∧
    (∀ e : ℕ, s.nEsc.val ≤ e ∨ p.toNat % 2 = 1 ∨ p = 0#8 →
      exec (.setPoles e p) s = .next { s with out := [{ result := some (.error .invalidArgument) }] })

/-- `RESET` writes every element of the state to its reset value (R160), and those values are the ones of R30: the parser
group empty, no record in use, every field unwritten, 2 poles (the spec's decisions D4, D5, D7, D14, D27).  That the
input still to come and the count of free values stay is the model's choice (log entries 1 and 5). -/
def Obligations.ResetWritesEveryElement : Prop :=
  (∀ s : State, exec .reset s = .next
    { State.reset with input := s.input, out := [{ result := some .ok }], free := s.free }) ∧
  State.reset.cnt = 0 ∧ State.reset.hi = 0#8 ∧ State.reset.ck = 0#8 ∧ State.reset.kind = .noFrame ∧
  State.reset.escId = 0#3 ∧ State.reset.tp = false ∧ State.reset.resp = false ∧
  (∀ i : Fin 11, State.reset.ticks[i] = 0#16) ∧ State.reset.nEsc = 0 ∧ State.reset.tpReported = false ∧
  ∀ e : RecIdx, State.reset.record e = { poles := 2#8 }

/-- Reads of the control registers and of the written bits deliver them and change nothing (R133, the spec's decisions D7
and D29; that a read is a step of the model is log entry 12). -/
def Obligations.ReadOfControlPorts : Prop :=
  ∀ s : State,
    exec (.read .nEsc) s = .next { s with out := [{ port := some (.count s.nEsc) }] } ∧
    exec (.read .tpReported) s = .next { s with out := [{ port := some (.bit s.tpReported) }] } ∧
    ∀ e : RecIdx,
      exec (.read (.poles e)) s = .next { s with out := [{ port := some (.poles (s.record e).poles) }] } ∧
      ∀ (f : Field) (w : Bool), exec (.read (.written e f)) s = .next { s with out := [{ port := some (.bit w) }] } ↔
        w = match f with
          | .voltage => (s.record e).voltage.isSome
          | .rippleVoltage => (s.record e).rippleVoltage.isSome
          | .current => (s.record e).current.isSome
          | .throttle => (s.record e).throttle.isSome
          | .outputPower => (s.record e).outputPower.isSome
          | .erpm => (s.record e).erpm.isSome
          | .becVoltage => (s.record e).becVoltage.isSome
          | .becCurrent => (s.record e).becCurrent.isSome
          | .temperature => (s.record e).temperature.isSome

/-- A read of a written field delivers it and changes nothing; a read of an unwritten one delivers some value, of which
nothing is said, and changes only the model's count of free values (R133, U2, the spec's decision D7). -/
def Obligations.ReadOfFields : Prop :=
  ∀ (s : State) (e : RecIdx),
    (∀ v, (s.record e).voltage = some v →
      exec (.read (.field e .voltage)) s = .next { s with out := [{ port := some (.num v) }] }) ∧
    (∀ v, (s.record e).rippleVoltage = some v →
      exec (.read (.field e .rippleVoltage)) s = .next { s with out := [{ port := some (.num v) }] }) ∧
    (∀ v, (s.record e).current = some v →
      exec (.read (.field e .current)) s = .next { s with out := [{ port := some (.num v) }] }) ∧
    (∀ v, (s.record e).throttle = some v →
      exec (.read (.field e .throttle)) s = .next { s with out := [{ port := some (.num v) }] }) ∧
    (∀ v, (s.record e).outputPower = some v →
      exec (.read (.field e .outputPower)) s = .next { s with out := [{ port := some (.int v) }] }) ∧
    (∀ v, (s.record e).erpm = some v →
      exec (.read (.field e .erpm)) s = .next { s with out := [{ port := some (.int v) }] }) ∧
    (∀ v, (s.record e).becVoltage = some v →
      exec (.read (.field e .becVoltage)) s = .next { s with out := [{ port := some (.num v) }] }) ∧
    (∀ v, (s.record e).becCurrent = some v →
      exec (.read (.field e .becCurrent)) s = .next { s with out := [{ port := some (.num v) }] }) ∧
    (∀ v, (s.record e).temperature = some v →
      exec (.read (.field e .temperature)) s = .next { s with out := [{ port := some (.num v) }] }) ∧
    (∀ f, writtenBit (s.record e) f = false → ∃ v,
      exec (.read (.field e f)) s = .next { s with out := [{ port := some v }], free := s.free + 1 })

/-- `SHAFT_RPM[e]` is the exact quotient of the stored electrical value by half the pole count, an integer because the
count is even (R134, the spec's decision D18); without an electrical value it is some value of which nothing is said
(U2). -/
def Obligations.ShaftRpmDerivedAtRead : Prop :=
  ∀ (s : State) (e : RecIdx), (s.record e).poles.toNat % 2 = 0 → 2 ≤ (s.record e).poles.toNat →
    (∀ z : ℤ, (s.record e).erpm = some z →
      exec (.read (.shaftRpm e)) s = .next
        { s with out := [{ port := some (.num (.rat ((z : ℚ) / (((s.record e).poles.toNat / 2 : ℕ) : ℚ)))) }] }) ∧
    ((s.record e).erpm = none → ∃ q,
      exec (.read (.shaftRpm e)) s = .next { s with out := [{ port := some (.num q) }], free := s.free + 1 })

/-! ### Frames -/

/-- A telemetry frame fed to a parser that expects a header: twenty-four quiet steps, and a last step that is the checksum
step over exactly the frame's fields and ticks (section 6 of 40_frame_parser.md, derived there from R80 to R89). -/
def Obligations.TelemetryFrameAsAWhole : Prop :=
  ∀ (s : State) (tp : Bool) (esc : EscId) (ticks : Ticks) (ck : Byte), s.cnt = 0 →
    ∃ u, exec (.ingest ck)
        { s with cnt := 24, hi := BitVec.ofNat 8 (ticks[10].toNat / 256), ck := xorAll (coveredBytes tp esc ticks),
                 kind := .telemetry, escId := esc, tp := tp, ticks := ticks } = .next u ∧
      exec (.telemetry tp esc ticks ck) s = .next { u with out := List.replicate 24 Output.quiet ++ u.out }

/-- A response frame fed to a parser that expects a header: a quiet step, then the response with its event (section 6
of 40_frame_parser.md, derived there from R81 and R84). -/
def Obligations.ResponseFrameAsAWhole : Prop :=
  ∀ (s : State) (r : Bool), s.cnt = 0 →
    exec (.response r) s = .next
      { s with hi := 0x55#8, ck := 0x55#8, kind := .response, resp := r, cnt := 0,
               out := [Output.quiet,
                       { parser := some (.pResponse r), result := some (.response r), events := [.response r] }] }

/-- A failed pair fed to a parser that expects a header: two quiet steps, after which the parser group is empty and
nothing else has changed (R45, R85; "empty" is the spec's decision D4). -/
def Obligations.FailedPairAsAWhole : Prop :=
  ∀ (s : State) (h l : Byte), s.cnt = 0 → (Instr.framingError h l).wellFormed = true →
    exec (.framingError h l) s = .next
      { s with cnt := 0, hi := 0#8, ck := 0#8, kind := .noFrame, escId := 0#3, tp := false, resp := false,
               ticks := Vector.replicate 11 0#16, out := [Output.quiet, Output.quiet] }

/-- A frame row in any state is the run of the `BYTE` steps of its bytes, each with an output of its own, wherever the
parser stands (R41, R135, R169). -/
def Obligations.FrameRowsRunTheirBytes : Prop :=
  ∀ (s : State) (tp : Bool) (esc : EscId) (ticks : Ticks) (ck h l : Byte) (r : Bool),
    ∀ i ∈ ([.telemetry tp esc ticks ck, .response r, .framingError h l] : List Instr), ∀ bs, encode i = some bs →
      ∃ t t' : State, exec i s = .next t ∧
        Sys2Proof.core.run bs.length ({ s with input := bs.map Input.byte ++ s.input } : State) = .next t' ∧
        t = { t' with out := t.out } ∧ t.out.length = bs.length

/-- A byte array "is the same as its bytes given one at a time in ascending index order; the block sees no array
boundary" (R41): at most as many steps reach the same state, what was delivered last apart. -/
def Obligations.ArraySameAsItsBytes : Prop :=
  ∀ (s : State) (bs : List Byte) (rest : List Input), bs ≠ [] →
    ∃ (k : ℕ) (t t' : State), k ≤ bs.length ∧
      Sys2Proof.core.run k ({ s with input := .bytes bs :: rest } : State) = .next t ∧ t.input = rest ∧
      Sys2Proof.core.run bs.length ({ s with input := bs.map Input.byte ++ rest } : State) = .next t' ∧
      t = { t' with out := t.out }

/-- A valid telemetry frame with exactly one byte replaced, at a position from 2 to 24 or at position 1 with the header
test kept, ends in a checksum mismatch and leaves the readings alone (R94, derived in the spec from R66 and R89). -/
def Obligations.OneCorruptedByteDetected : Prop :=
  ∀ (s : State) (tp tp' : Bool) (esc esc' : EscId) (ticks ticks' : Ticks) (ck ck' v : Byte) (k : ℕ), s.cnt = 0 →
    ck = xorAll (coveredBytes tp esc ticks) → 1 ≤ k → k ≤ 24 →
    telemetryBytes tp' esc' ticks' ck' = (telemetryBytes tp esc ticks ck).set k v →
    telemetryBytes tp' esc' ticks' ck' ≠ telemetryBytes tp esc ticks ck →
    ∃ t, exec (.telemetry tp' esc' ticks' ck') s = .next t ∧ t.readings = s.readings ∧ t.cnt = 0 ∧
      t.out = List.replicate 24 Output.quiet ++
        [{ parser := some .pChecksumError, result := some (.error .checksumMismatch),
           events := [.error .checksumMismatch] }]

/-- No header is recognised inside a frame: the two bytes of a response frame there are data, raise nothing and change
only the parser group (R169, derived in the spec from R86 to R88). -/
def Obligations.ResponseInsideFrameIsData : Prop :=
  ∀ (s : State) (r : Bool), 2 ≤ s.cnt → s.cnt ≤ 22 →
    ∃ t, exec (.response r) s = .next t ∧ t.cnt = s.cnt + 2 ∧ t.out = [Output.quiet, Output.quiet] ∧
      t = { s with cnt := t.cnt, hi := t.hi, ck := t.ck, ticks := t.ticks, out := t.out }

/-- The checksum does not see the order of the ticks: two frames whose ticks are a rearrangement of each other have the
same checksum (R171, derived in the spec from R66). -/
def Obligations.ChecksumBlindToOrder : Prop :=
  ∀ (tp : Bool) (esc : EscId) (ticks ticks' : Ticks), ticks.toList.Perm ticks'.toList →
    xorAll (coveredBytes tp esc ticks) = xorAll (coveredBytes tp esc ticks')

/-! ### Encoding -/

/-- Decode and encode agree on frames: the bytes of every well-formed frame or failed pair, followed by any bytes,
decode to it, with every field at every value, and leave the bytes that follow (R61, R63, R65, R67). -/
def Obligations.FramesDecodeBack : Prop :=
  ∀ (tp : Bool) (esc : EscId) (ticks : Ticks) (ck h l : Byte) (r : Bool) (rest : List Byte),
    ∀ i ∈ ([.telemetry tp esc ticks ck, .response r, .framingError h l] : List Instr), i.wellFormed = true →
      ∃ bs, encode i = some bs ∧ decode (bs ++ rest) = .ok (i, rest)

/-- The other direction: what the decoder reads from bytes is well formed and encodes to exactly the bytes consumed, so no
two runs of bytes mean the same frame (R67, R69). -/
def Obligations.DecodedFramesEncodeBack : Prop :=
  ∀ (bs rest : List Byte) (i : Instr), decode bs = .ok (i, rest) →
    i.wellFormed = true ∧ ∃ es, encode i = some es ∧ bs = es ++ rest

/-- Decode and encode agree on the input sequence: the item that asks for a well-formed operation asks for it and leaves
nothing over, for the frames, the `BYTE` step, the host operations and the reads (R71, R130, R133). -/
def Obligations.InputItemsDecodeBack : Prop :=
  ∀ (i : Instr) (x : Input), i.wellFormed = true → present i = some x → decodeInput x = some (i, [])

/-- Every header pair is classified, by its two bytes alone (section 3 of 30_encoding.md, derived there from R62 and
R63). -/
def Obligations.EveryHeaderPairClassified : Prop :=
  ∀ (h l : Byte) (rest : List Byte), 23 ≤ rest.length →
    (h.toNat = 255 → 240 ≤ l.toNat → ∃ ticks ck,
      decode (h :: l :: rest) =
        .ok (.telemetry (decide (l.toNat / 8 % 2 = 1)) (BitVec.ofNat 3 (l.toNat % 8)) ticks ck, rest.drop 23)) ∧
    (h.toNat = 85 → l.toNat = 170 ∨ l.toNat = 171 →
      decode (h :: l :: rest) = .ok (.response (decide (l.toNat = 171)), rest)) ∧
    (¬(h.toNat = 255 ∧ 240 ≤ l.toNat) → ¬(h.toNat = 85 ∧ (l.toNat = 170 ∨ l.toNat = 171)) →
      decode (h :: l :: rest) = .ok (.framingError h l, rest))

/-- A few words written out from the spec's encodings decode to what they stand for: the frame `A` of 95_test_vectors.md,
both responses, and a failed pair. -/
def Obligations.SampleWordsDecode : Prop :=
  decode [0xFF, 0xF0, 0x03, 0xE8, 0x02, 0x58, 0, 0, 0, 0, 0, 0, 0, 0, 0, 0, 0, 0, 0, 0, 0, 0, 0, 0, 0xBE] =
    .ok (.telemetry false 0 #v[1000, 600, 0, 0, 0, 0, 0, 0, 0, 0, 0] 0xBE, []) ∧
  decode [0x55, 0xAA] = .ok (.response false, []) ∧ decode [0x55, 0xAB] = .ok (.response true, []) ∧
  decode [0xFF, 0xEF] = .ok (.framingError 0xFF 0xEF, [])

/-! ### The whole machine -/

/-- A step runs the operation that the next input item asks for, with that item taken from the input and the unread rest
of an array put back; an empty array is no item; with no input the block waits and delivers nothing (R8, R130; the input
queue, the arrays and the waiting step are the model's choice, log entries 1 and 6).  It is the step of the block in the
number format that the machine is configured with, the reference semantics (R127; log entry 3). -/
def Obligations.StepRunsTheNextInput : Prop :=
  (∀ (s : State) (x : Input) (rest : List Input) (i : Instr) (bs : List Byte),
    s.input = x :: rest → decodeInput x = some (i, bs) →
      step s = exec i { s with input := if bs = [] then rest else .bytes bs :: rest }) ∧
  (∀ (s : State) (rest : List Input), s.input = .bytes [] :: rest → step s = step { s with input := rest }) ∧
  (∀ s : State, s.input = [] → step s = .next { s with out := [] }) ∧
  (∀ s : State, step s = .next (Block.stepAt configured s)) ∧
  (∀ (s : State) (nbits w : ℕ) (i : Instr) (bs : List Byte), decodeInput (tableInput nbits w) = some (i, bs) →
    decodeTableWord nbits w = some i ∧
    step (s.withFetchWord nbits w) = exec i { s with input := if bs = [] then s.input else .bytes bs :: s.input })

/-- Nothing stops the block: every operation, in every state, answers a next state, and so does every step (R140: no
condition stops the block; that errors are next states and not faults is log entry 11). -/
def Obligations.NothingStopsTheBlock : Prop :=
  (∀ (i : Instr) (s : State), ∃ t, exec i s = .next t) ∧ ∀ s : State, ∃ t, step s = .next t

/-- The state after reset meets the invariants. -/
def Obligations.ResetMeetsTheInvariants : Prop :=
  State.reset.Inv ∧ State.reset.CkMeans ∧ State.reset.Ranges

/-- Every step keeps R29's invariants: the bound of `CNT`, the tag inside a frame, legal pole counts, and unwritten
records that are not in use; and so it does in any number format (R127). -/
def Obligations.StepKeepsTheInvariants : Prop :=
  (∀ s t : State, s.Inv → step s = .next t → t.Inv) ∧
  ∀ (α : Type) (P : NumParams α) (s : Block.State α), s.Inv → (Block.stepAt P s).Inv

/-- Every step keeps what the running checksum means: inside a telemetry frame `CK` is the XOR of the bytes consumed so
far, rebuilt from the header fields, the ticks stored and the held byte (R66, R88). -/
def Obligations.StepKeepsChecksumMeaning : Prop :=
  ∀ s t : State, s.CkMeans → step s = .next t → t.CkMeans

/-- Every step keeps the ranges of the integer fields (R21, derived in the spec from R106, R112 and R113). -/
def Obligations.StepKeepsIntegerRanges : Prop :=
  ∀ s t : State, s.Ranges → step s = .next t → t.Ranges

/-- "No consumer can tell": states that differ only in parser elements that are written again before they are read
deliver the same, step for step, whatever the input (R27, R175; the spec's decision D4). -/
def Obligations.HiddenValuesNeverShow : Prop :=
  ∀ s s' t : State, s.Alike s' → step s = .next t →
    ∃ t', step s' = .next t' ∧ t.Alike t' ∧ t.out = t'.out

/-- From any state with `CNT` in its range the parser expects a header again within at most 25 further bytes, whatever
they are (R97, derived in the spec). -/
def Obligations.HuntingAgainWithinAFrame : Prop :=
  ∀ (s : State) (bs : List Byte), s.cnt ≤ 24 → bs.length = 25 →
    ∃ (k : ℕ) (t : State), 1 ≤ k ∧ k ≤ 25 ∧
      Sys2Proof.core.run k ({ s with input := bs.map Input.byte } : State) = .next t ∧ t.cnt = 0
end

