-- ==== Sys2Proof/Laws/State.lean ====
section
/-! SUPPORT. What each named update of the state does to each field: one lemma per field per update, so that no later
proof unfolds an update. -/

namespace Sys2Proof.Machine.Block

variable {α : Type}

/-! ### `CLEAR_FRAME()` (R90) -/

@[simp] theorem State.clearFrame_cnt (s : State α) : s.clearFrame.cnt = 0 := rfl
@[simp] theorem State.clearFrame_hi (s : State α) : s.clearFrame.hi = 0#8 := rfl
@[simp] theorem State.clearFrame_ck (s : State α) : s.clearFrame.ck = 0#8 := rfl
@[simp] theorem State.clearFrame_kind (s : State α) : s.clearFrame.kind = .noFrame := rfl
@[simp] theorem State.clearFrame_escId (s : State α) : s.clearFrame.escId = 0#3 := rfl
@[simp] theorem State.clearFrame_tp (s : State α) : s.clearFrame.tp = false := rfl
@[simp] theorem State.clearFrame_resp (s : State α) : s.clearFrame.resp = false := rfl
@[simp] theorem State.clearFrame_ticks (s : State α) : s.clearFrame.ticks = Vector.replicate 11 0#16 := rfl
@[simp] theorem State.clearFrame_nEsc (s : State α) : s.clearFrame.nEsc = s.nEsc := rfl
@[simp] theorem State.clearFrame_readings (s : State α) : s.clearFrame.readings = s.readings := rfl
@[simp] theorem State.clearFrame_tpReported (s : State α) : s.clearFrame.tpReported = s.tpReported := rfl
@[simp] theorem State.clearFrame_input (s : State α) : s.clearFrame.input = s.input := rfl
@[simp] theorem State.clearFrame_out (s : State α) : s.clearFrame.out = s.out := rfl
@[simp] theorem State.clearFrame_free (s : State α) : s.clearFrame.free = s.free := rfl

/-! ### A write of a tick (R87) -/

@[simp] theorem State.setTick_cnt (i : Nat) (v : Tick) (s : State α) : (s.setTick i v).cnt = s.cnt := rfl
@[simp] theorem State.setTick_hi (i : Nat) (v : Tick) (s : State α) : (s.setTick i v).hi = s.hi := rfl
@[simp] theorem State.setTick_ck (i : Nat) (v : Tick) (s : State α) : (s.setTick i v).ck = s.ck := rfl
@[simp] theorem State.setTick_kind (i : Nat) (v : Tick) (s : State α) : (s.setTick i v).kind = s.kind := rfl
@[simp] theorem State.setTick_escId (i : Nat) (v : Tick) (s : State α) : (s.setTick i v).escId = s.escId := rfl
@[simp] theorem State.setTick_tp (i : Nat) (v : Tick) (s : State α) : (s.setTick i v).tp = s.tp := rfl
@[simp] theorem State.setTick_resp (i : Nat) (v : Tick) (s : State α) : (s.setTick i v).resp = s.resp := rfl
@[simp] theorem State.setTick_ticks (i : Nat) (v : Tick) (s : State α) : (s.setTick i v).ticks = s.ticks.setIfInBounds i v := rfl
@[simp] theorem State.setTick_nEsc (i : Nat) (v : Tick) (s : State α) : (s.setTick i v).nEsc = s.nEsc := rfl
@[simp] theorem State.setTick_readings (i : Nat) (v : Tick) (s : State α) : (s.setTick i v).readings = s.readings := rfl
@[simp] theorem State.setTick_tpReported (i : Nat) (v : Tick) (s : State α) : (s.setTick i v).tpReported = s.tpReported := rfl
@[simp] theorem State.setTick_input (i : Nat) (v : Tick) (s : State α) : (s.setTick i v).input = s.input := rfl
@[simp] theorem State.setTick_out (i : Nat) (v : Tick) (s : State α) : (s.setTick i v).out = s.out := rfl
@[simp] theorem State.setTick_free (i : Nat) (v : Tick) (s : State α) : (s.setTick i v).free = s.free := rfl

/-! ### A write of a record (R21) -/

@[simp] theorem State.setRecord_cnt (e : RecIdx) (r : Reading α) (s : State α) : (s.setRecord e r).cnt = s.cnt := rfl
@[simp] theorem State.setRecord_hi (e : RecIdx) (r : Reading α) (s : State α) : (s.setRecord e r).hi = s.hi := rfl
@[simp] theorem State.setRecord_ck (e : RecIdx) (r : Reading α) (s : State α) : (s.setRecord e r).ck = s.ck := rfl
@[simp] theorem State.setRecord_kind (e : RecIdx) (r : Reading α) (s : State α) : (s.setRecord e r).kind = s.kind := rfl
@[simp] theorem State.setRecord_escId (e : RecIdx) (r : Reading α) (s : State α) : (s.setRecord e r).escId = s.escId := rfl
@[simp] theorem State.setRecord_tp (e : RecIdx) (r : Reading α) (s : State α) : (s.setRecord e r).tp = s.tp := rfl
@[simp] theorem State.setRecord_resp (e : RecIdx) (r : Reading α) (s : State α) : (s.setRecord e r).resp = s.resp := rfl
@[simp] theorem State.setRecord_ticks (e : RecIdx) (r : Reading α) (s : State α) : (s.setRecord e r).ticks = s.ticks := rfl
@[simp] theorem State.setRecord_nEsc (e : RecIdx) (r : Reading α) (s : State α) : (s.setRecord e r).nEsc = s.nEsc := rfl
@[simp] theorem State.setRecord_readings (e : RecIdx) (r : Reading α) (s : State α) : (s.setRecord e r).readings = s.readings.set e r := rfl
@[simp] theorem State.setRecord_tpReported (e : RecIdx) (r : Reading α) (s : State α) : (s.setRecord e r).tpReported = s.tpReported := rfl
@[simp] theorem State.setRecord_input (e : RecIdx) (r : Reading α) (s : State α) : (s.setRecord e r).input = s.input := rfl
@[simp] theorem State.setRecord_out (e : RecIdx) (r : Reading α) (s : State α) : (s.setRecord e r).out = s.out := rfl
@[simp] theorem State.setRecord_free (e : RecIdx) (r : Reading α) (s : State α) : (s.setRecord e r).free = s.free := rfl

@[simp] theorem State.setRecord_record_same (e : RecIdx) (r : Reading α) (s : State α) : (s.setRecord e r).record e = r := by
  simp [State.record]

theorem State.setRecord_record_other {e f : RecIdx} (h : f ≠ e) (r : Reading α) (s : State α) :
    (s.setRecord e r).record f = s.record f := by
  have : e.val ≠ f.val := fun q => h (Fin.ext q.symm)
  simp [State.record, this]

/-! ### The end of a step -/

@[simp] theorem State.deliver_cnt (o : Output α) (s : State α) : (s.deliver o).cnt = s.cnt := rfl
@[simp] theorem State.deliver_hi (o : Output α) (s : State α) : (s.deliver o).hi = s.hi := rfl
@[simp] theorem State.deliver_ck (o : Output α) (s : State α) : (s.deliver o).ck = s.ck := rfl
@[simp] theorem State.deliver_kind (o : Output α) (s : State α) : (s.deliver o).kind = s.kind := rfl
@[simp] theorem State.deliver_escId (o : Output α) (s : State α) : (s.deliver o).escId = s.escId := rfl
@[simp] theorem State.deliver_tp (o : Output α) (s : State α) : (s.deliver o).tp = s.tp := rfl
@[simp] theorem State.deliver_resp (o : Output α) (s : State α) : (s.deliver o).resp = s.resp := rfl
@[simp] theorem State.deliver_ticks (o : Output α) (s : State α) : (s.deliver o).ticks = s.ticks := rfl
@[simp] theorem State.deliver_nEsc (o : Output α) (s : State α) : (s.deliver o).nEsc = s.nEsc := rfl
@[simp] theorem State.deliver_readings (o : Output α) (s : State α) : (s.deliver o).readings = s.readings := rfl
@[simp] theorem State.deliver_tpReported (o : Output α) (s : State α) : (s.deliver o).tpReported = s.tpReported := rfl
@[simp] theorem State.deliver_input (o : Output α) (s : State α) : (s.deliver o).input = s.input := rfl
@[simp] theorem State.deliver_out (o : Output α) (s : State α) : (s.deliver o).out = [o] := rfl
@[simp] theorem State.deliver_free (o : Output α) (s : State α) : (s.deliver o).free = s.free := rfl

@[simp] theorem State.deliver_record (o : Output α) (s : State α) (e : RecIdx) : (s.deliver o).record e = s.record e := rfl
@[simp] theorem State.clearFrame_record (s : State α) (e : RecIdx) : s.clearFrame.record e = s.record e := rfl
@[simp] theorem State.setTick_record (i : Nat) (v : Tick) (s : State α) (e : RecIdx) : (s.setTick i v).record e = s.record e := rfl

/-! ### An error (R149) -/

@[simp] theorem State.raise_cnt (c : ErrorCode) (o : Output α) (s : State α) :
    (s.raise c o).cnt = s.cnt := rfl
@[simp] theorem State.raise_hi (c : ErrorCode) (o : Output α) (s : State α) :
    (s.raise c o).hi = s.hi := rfl
@[simp] theorem State.raise_ck (c : ErrorCode) (o : Output α) (s : State α) :
    (s.raise c o).ck = s.ck := rfl
@[simp] theorem State.raise_kind (c : ErrorCode) (o : Output α) (s : State α) :
    (s.raise c o).kind = s.kind := rfl
@[simp] theorem State.raise_escId (c : ErrorCode) (o : Output α) (s : State α) :
    (s.raise c o).escId = s.escId := rfl
@[simp] theorem State.raise_tp (c : ErrorCode) (o : Output α) (s : State α) :
    (s.raise c o).tp = s.tp := rfl
@[simp] theorem State.raise_resp (c : ErrorCode) (o : Output α) (s : State α) :
    (s.raise c o).resp = s.resp := rfl
@[simp] theorem State.raise_ticks (c : ErrorCode) (o : Output α) (s : State α) :
    (s.raise c o).ticks = s.ticks := rfl
@[simp] theorem State.raise_nEsc (c : ErrorCode) (o : Output α) (s : State α) :
    (s.raise c o).nEsc = s.nEsc := rfl
@[simp] theorem State.raise_readings (c : ErrorCode) (o : Output α) (s : State α) :
    (s.raise c o).readings = s.readings := rfl
@[simp] theorem State.raise_tpReported (c : ErrorCode) (o : Output α) (s : State α) :
    (s.raise c o).tpReported = s.tpReported := rfl
@[simp] theorem State.raise_input (c : ErrorCode) (o : Output α) (s : State α) :
    (s.raise c o).input = s.input := rfl
@[simp] theorem State.raise_out (c : ErrorCode) (o : Output α) (s : State α) :
    (s.raise c o).out = [{ o with result := some (.error c), events := errorEvents c }] := rfl
@[simp] theorem State.raise_free (c : ErrorCode) (o : Output α) (s : State α) :
    (s.raise c o).free = s.free := rfl
@[simp] theorem State.raise_record (c : ErrorCode) (o : Output α) (s : State α) (e : RecIdx) :
    (s.raise c o).record e = s.record e := rfl

/-! ### The throttle-presence update (R123) -/

theorem State.reportTp_eq (s : State α) : s.reportTp = { s with tpReported := s.tp } := by
  unfold State.reportTp
  split
  · rfl
  · rename_i h
    rw [ne_eq, not_not] at h
    cases s
    cases h
    rfl

@[simp] theorem State.reportTp_cnt (s : State α) : s.reportTp.cnt = s.cnt := by
  unfold State.reportTp; split <;> rfl
@[simp] theorem State.reportTp_hi (s : State α) : s.reportTp.hi = s.hi := by
  unfold State.reportTp; split <;> rfl
@[simp] theorem State.reportTp_ck (s : State α) : s.reportTp.ck = s.ck := by
  unfold State.reportTp; split <;> rfl
@[simp] theorem State.reportTp_kind (s : State α) : s.reportTp.kind = s.kind := by
  unfold State.reportTp; split <;> rfl
@[simp] theorem State.reportTp_escId (s : State α) : s.reportTp.escId = s.escId := by
  unfold State.reportTp; split <;> rfl
@[simp] theorem State.reportTp_tp (s : State α) : s.reportTp.tp = s.tp := by
  unfold State.reportTp; split <;> rfl
@[simp] theorem State.reportTp_resp (s : State α) : s.reportTp.resp = s.resp := by
  unfold State.reportTp; split <;> rfl
@[simp] theorem State.reportTp_ticks (s : State α) : s.reportTp.ticks = s.ticks := by
  unfold State.reportTp; split <;> rfl
@[simp] theorem State.reportTp_nEsc (s : State α) : s.reportTp.nEsc = s.nEsc := by
  unfold State.reportTp; split <;> rfl
@[simp] theorem State.reportTp_readings (s : State α) : s.reportTp.readings = s.readings := by
  unfold State.reportTp; split <;> rfl
@[simp] theorem State.reportTp_tpReported (s : State α) : s.reportTp.tpReported = s.tp := by
  unfold State.reportTp; split <;> simp_all
@[simp] theorem State.reportTp_input (s : State α) : s.reportTp.input = s.input := by
  unfold State.reportTp; split <;> rfl
@[simp] theorem State.reportTp_out (s : State α) : s.reportTp.out = s.out := by
  unfold State.reportTp; split <;> rfl
@[simp] theorem State.reportTp_free (s : State α) : s.reportTp.free = s.free := by
  unfold State.reportTp; split <;> rfl
@[simp] theorem State.reportTp_record (s : State α) (e : RecIdx) : s.reportTp.record e = s.record e := by
  simp [State.record]

/-! ### `withInput` -/

@[simp] theorem State.withInput_cnt (l : List Input) (s : State α) : (s.withInput l).cnt = s.cnt := rfl
@[simp] theorem State.withInput_hi (l : List Input) (s : State α) : (s.withInput l).hi = s.hi := rfl
@[simp] theorem State.withInput_ck (l : List Input) (s : State α) : (s.withInput l).ck = s.ck := rfl
@[simp] theorem State.withInput_kind (l : List Input) (s : State α) : (s.withInput l).kind = s.kind := rfl
@[simp] theorem State.withInput_escId (l : List Input) (s : State α) : (s.withInput l).escId = s.escId := rfl
@[simp] theorem State.withInput_tp (l : List Input) (s : State α) : (s.withInput l).tp = s.tp := rfl
@[simp] theorem State.withInput_resp (l : List Input) (s : State α) : (s.withInput l).resp = s.resp := rfl
@[simp] theorem State.withInput_ticks (l : List Input) (s : State α) : (s.withInput l).ticks = s.ticks := rfl
@[simp] theorem State.withInput_nEsc (l : List Input) (s : State α) : (s.withInput l).nEsc = s.nEsc := rfl
@[simp] theorem State.withInput_readings (l : List Input) (s : State α) : (s.withInput l).readings = s.readings := rfl
@[simp] theorem State.withInput_tpReported (l : List Input) (s : State α) : (s.withInput l).tpReported = s.tpReported := rfl
@[simp] theorem State.withInput_input (l : List Input) (s : State α) : (s.withInput l).input = l := rfl
@[simp] theorem State.withInput_out (l : List Input) (s : State α) : (s.withInput l).out = s.out := rfl
@[simp] theorem State.withInput_free (l : List Input) (s : State α) : (s.withInput l).free = s.free := rfl
@[simp] theorem State.withInput_record (l : List Input) (s : State α) (e : RecIdx) : (s.withInput l).record e = s.record e := rfl
@[simp] theorem State.withInput_withInput (l l' : List Input) (s : State α) : (s.withInput l).withInput l' = s.withInput l' := rfl
@[simp] theorem State.withInput_self (s : State α) : s.withInput s.input = s := rfl

/-! ### `withOut` -/

@[simp] theorem State.withOut_cnt (o : List (Output α)) (s : State α) : (s.withOut o).cnt = s.cnt := rfl
@[simp] theorem State.withOut_hi (o : List (Output α)) (s : State α) : (s.withOut o).hi = s.hi := rfl
@[simp] theorem State.withOut_ck (o : List (Output α)) (s : State α) : (s.withOut o).ck = s.ck := rfl
@[simp] theorem State.withOut_kind (o : List (Output α)) (s : State α) : (s.withOut o).kind = s.kind := rfl
@[simp] theorem State.withOut_escId (o : List (Output α)) (s : State α) : (s.withOut o).escId = s.escId := rfl
@[simp] theorem State.withOut_tp (o : List (Output α)) (s : State α) : (s.withOut o).tp = s.tp := rfl
@[simp] theorem State.withOut_resp (o : List (Output α)) (s : State α) : (s.withOut o).resp = s.resp := rfl
@[simp] theorem State.withOut_ticks (o : List (Output α)) (s : State α) : (s.withOut o).ticks = s.ticks := rfl
@[simp] theorem State.withOut_nEsc (o : List (Output α)) (s : State α) : (s.withOut o).nEsc = s.nEsc := rfl
@[simp] theorem State.withOut_readings (o : List (Output α)) (s : State α) : (s.withOut o).readings = s.readings := rfl
@[simp] theorem State.withOut_tpReported (o : List (Output α)) (s : State α) : (s.withOut o).tpReported = s.tpReported := rfl
@[simp] theorem State.withOut_input (o : List (Output α)) (s : State α) : (s.withOut o).input = s.input := rfl
@[simp] theorem State.withOut_out (o : List (Output α)) (s : State α) : (s.withOut o).out = o := rfl
@[simp] theorem State.withOut_free (o : List (Output α)) (s : State α) : (s.withOut o).free = s.free := rfl
@[simp] theorem State.withOut_record (o : List (Output α)) (s : State α) (e : RecIdx) : (s.withOut o).record e = s.record e := rfl
@[simp] theorem State.withOut_withOut (o o' : List (Output α)) (s : State α) : (s.withOut o).withOut o' = s.withOut o' := rfl
@[simp] theorem State.withOut_self (s : State α) : s.withOut s.out = s := rfl

/-! ### `withFree` -/

@[simp] theorem State.withFree_cnt (k : Nat) (s : State α) : (s.withFree k).cnt = s.cnt := rfl
@[simp] theorem State.withFree_hi (k : Nat) (s : State α) : (s.withFree k).hi = s.hi := rfl
@[simp] theorem State.withFree_ck (k : Nat) (s : State α) : (s.withFree k).ck = s.ck := rfl
@[simp] theorem State.withFree_kind (k : Nat) (s : State α) : (s.withFree k).kind = s.kind := rfl
@[simp] theorem State.withFree_escId (k : Nat) (s : State α) : (s.withFree k).escId = s.escId := rfl
@[simp] theorem State.withFree_tp (k : Nat) (s : State α) : (s.withFree k).tp = s.tp := rfl
@[simp] theorem State.withFree_resp (k : Nat) (s : State α) : (s.withFree k).resp = s.resp := rfl
@[simp] theorem State.withFree_ticks (k : Nat) (s : State α) : (s.withFree k).ticks = s.ticks := rfl
@[simp] theorem State.withFree_nEsc (k : Nat) (s : State α) : (s.withFree k).nEsc = s.nEsc := rfl
@[simp] theorem State.withFree_readings (k : Nat) (s : State α) : (s.withFree k).readings = s.readings := rfl
@[simp] theorem State.withFree_tpReported (k : Nat) (s : State α) : (s.withFree k).tpReported = s.tpReported := rfl
@[simp] theorem State.withFree_input (k : Nat) (s : State α) : (s.withFree k).input = s.input := rfl
@[simp] theorem State.withFree_out (k : Nat) (s : State α) : (s.withFree k).out = s.out := rfl
@[simp] theorem State.withFree_free (k : Nat) (s : State α) : (s.withFree k).free = k := rfl
@[simp] theorem State.withFree_record (k : Nat) (s : State α) (e : RecIdx) : (s.withFree k).record e = s.record e := rfl
@[simp] theorem State.withFree_withFree (k k' : Nat) (s : State α) : (s.withFree k).withFree k' = s.withFree k' := rfl
@[simp] theorem State.withFree_self (s : State α) : s.withFree s.free = s := rfl

/-! ### `TABLE_RESET` (R131) -/

@[simp] theorem State.resetTable_cnt (c : EscCount) (s : State α) : (s.resetTable c).cnt = s.cnt := rfl
@[simp] theorem State.resetTable_hi (c : EscCount) (s : State α) : (s.resetTable c).hi = s.hi := rfl
@[simp] theorem State.resetTable_ck (c : EscCount) (s : State α) : (s.resetTable c).ck = s.ck := rfl
@[simp] theorem State.resetTable_kind (c : EscCount) (s : State α) : (s.resetTable c).kind = s.kind := rfl
@[simp] theorem State.resetTable_escId (c : EscCount) (s : State α) : (s.resetTable c).escId = s.escId := rfl
@[simp] theorem State.resetTable_tp (c : EscCount) (s : State α) : (s.resetTable c).tp = s.tp := rfl
@[simp] theorem State.resetTable_resp (c : EscCount) (s : State α) : (s.resetTable c).resp = s.resp := rfl
@[simp] theorem State.resetTable_ticks (c : EscCount) (s : State α) : (s.resetTable c).ticks = s.ticks := rfl
@[simp] theorem State.resetTable_nEsc (c : EscCount) (s : State α) : (s.resetTable c).nEsc = c := rfl
@[simp] theorem State.resetTable_readings (c : EscCount) (s : State α) : (s.resetTable c).readings = Vector.replicate 2 {} := rfl
@[simp] theorem State.resetTable_tpReported (c : EscCount) (s : State α) : (s.resetTable c).tpReported = s.tpReported := rfl
@[simp] theorem State.resetTable_input (c : EscCount) (s : State α) : (s.resetTable c).input = s.input := rfl
@[simp] theorem State.resetTable_out (c : EscCount) (s : State α) : (s.resetTable c).out = s.out := rfl
@[simp] theorem State.resetTable_free (c : EscCount) (s : State α) : (s.resetTable c).free = s.free := rfl
@[simp] theorem State.resetTable_record (c : EscCount) (s : State α) (e : RecIdx) : (s.resetTable c).record e = {} := by
  simp [State.record]

/-! ### The reset values (R30) -/

@[simp] theorem State.initial_cnt : (State.initial : State α).cnt = 0 := rfl
@[simp] theorem State.initial_hi : (State.initial : State α).hi = 0#8 := rfl
@[simp] theorem State.initial_ck : (State.initial : State α).ck = 0#8 := rfl
@[simp] theorem State.initial_kind : (State.initial : State α).kind = .noFrame := rfl
@[simp] theorem State.initial_escId : (State.initial : State α).escId = 0#3 := rfl
@[simp] theorem State.initial_tp : (State.initial : State α).tp = false := rfl
@[simp] theorem State.initial_resp : (State.initial : State α).resp = false := rfl
@[simp] theorem State.initial_ticks : (State.initial : State α).ticks = Vector.replicate 11 0#16 := rfl
@[simp] theorem State.initial_nEsc : (State.initial : State α).nEsc = 0 := rfl
@[simp] theorem State.initial_readings : (State.initial : State α).readings = Vector.replicate 2 {} := rfl
@[simp] theorem State.initial_tpReported : (State.initial : State α).tpReported = false := rfl
@[simp] theorem State.initial_input : (State.initial : State α).input = [] := rfl
@[simp] theorem State.initial_out : (State.initial : State α).out = [] := rfl
@[simp] theorem State.initial_free : (State.initial : State α).free = 0 := rfl
@[simp] theorem State.initial_record (e : RecIdx) : (State.initial : State α).record e = {} := by simp [State.record]

theorem State.deliver_eq (o : Output α) (s : State α) : s.deliver o = s.withOut [o] := rfl

@[simp] theorem State.withOut_deliver (l : List (Output α)) (o : Output α) (s : State α) : (s.withOut l).deliver o = s.deliver o := rfl

@[simp] theorem State.deliver_withOut (l : List (Output α)) (o : Output α) (s : State α) : (s.deliver o).withOut l = s.withOut l := rfl

end Sys2Proof.Machine.Block
end

