-- ==== Sys2Proof/Laws/Decoder.lean ====
section
/-! SUPPORT. What the decoder can do: what a field update and a channel change, what `decode` writes and leaves, and the
sign of the selected temperature channel. -/

namespace Sys2Proof.Machine.Block

variable {α : Type}

/-! ### Field updates (R120) -/

/-- An equality test that is equality of the data: that of the exact format, and of the integer fields. -/
def IsEquality {β : Type} (eq : β → β → Bool) : Prop := ∀ a b, eq a b = true ↔ a = b

theorem exactEq_isEquality : IsEquality exactEq := fun a b => by simp [exactEq]

theorem intEq_isEquality : IsEquality intEq := fun a b => by simp [intEq]

/-- The change flag of an update says that the field's contents, written bit included, become different. -/
theorem fieldChanged_eq {β : Type} [DecidableEq β] {eq : β → β → Bool} (h : IsEquality eq) (old : Option β) (v : β) :
    fieldChanged eq old v = decide (some v ≠ old) := by
  cases old with
  | none => simp [fieldChanged]
  | some w =>
    have : eq w v = decide (w = v) := by rw [Bool.eq_iff_iff, h, decide_eq_true_iff]
    simp [fieldChanged, this, eq_comm]

@[simp] theorem fieldChanged_exact (old : Option Exact) (v : Exact) :
    fieldChanged exactEq old v = decide (some v ≠ old) := fieldChanged_eq exactEq_isEquality old v

@[simp] theorem fieldChanged_int (old : Option Int) (v : Int) :
    fieldChanged intEq old v = decide (some v ≠ old) := fieldChanged_eq intEq_isEquality old v

@[simp] theorem populated_iff (t : Tick) : populated t = true ↔ t ≠ 0#16 := by simp [populated]

/-! ### What a channel leaves alone -/

/-- A continuation of a decode that writes no pole count. -/
def KeepsPoles (c : DecodeRun α → DecodeRun α) : Prop := ∀ d, (c d).reading.poles = d.reading.poles

theorem chVoltage_poles (f : NumFormat α) (t : Ticks) : KeepsPoles (chVoltage f t) := by
  intro d; unfold chVoltage; split <;> rfl
theorem chRippleVoltage_poles (f : NumFormat α) (t : Ticks) : KeepsPoles (chRippleVoltage f t) := by
  intro d; unfold chRippleVoltage; split <;> rfl
theorem chCurrent_poles (f : NumFormat α) (t : Ticks) : KeepsPoles (chCurrent f t) := by
  intro d; unfold chCurrent; split <;> rfl
theorem chThrottle_poles (f : NumFormat α) (t : Ticks) : KeepsPoles (chThrottle f t) := by
  intro d; unfold chThrottle; split <;> rfl
theorem chOutputPower_poles (f : NumFormat α) (t : Ticks) : KeepsPoles (chOutputPower f t) := by
  intro d; unfold chOutputPower; split <;> rfl
theorem chRpm_poles (f : NumFormat α) (t : Ticks) : KeepsPoles (chRpm f t) := by
  intro d; unfold chRpm; split <;> rfl
theorem chBecVoltage_poles (f : NumFormat α) (t : Ticks) : KeepsPoles (chBecVoltage f t) := by
  intro d; unfold chBecVoltage; split <;> rfl
theorem chBecCurrent_poles (f : NumFormat α) (t : Ticks) : KeepsPoles (chBecCurrent f t) := by
  intro d; unfold chBecCurrent; split <;> rfl
theorem chTemperature_poles (P : NumParams α) (t : Ticks) : KeepsPoles (chTemperature P t) := by
  intro d; unfold chTemperature; split
  · rfl
  · split <;> rfl

theorem eightChannels_poles (f : NumFormat α) (t : Ticks) : KeepsPoles (eightChannels f t) := by
  intro d
  simp only [eightChannels]
  rw [chBecCurrent_poles, chBecVoltage_poles, chRpm_poles, chOutputPower_poles, chThrottle_poles, chCurrent_poles,
    chRippleVoltage_poles, chVoltage_poles]

/-- "The decoder never reads" or writes `POLES` (R23, R102). -/
theorem allChannels_poles (P : NumParams α) (t : Ticks) : KeepsPoles (allChannels P t) := by
  intro d
  rw [allChannels, chTemperature_poles, eightChannels_poles]

/-! ### What a channel writes (R105, R108 to R116) -/

theorem chVoltage_reading (f : NumFormat α) (t : Ticks) (d : DecodeRun α) : (chVoltage f t d).reading =
    if t[1] = 0#16 then d.reading else { d.reading with voltage := some (scaled f Config.kVoltage (normOf f t .voltage)) } := by
  by_cases h : t[1] = 0#16 <;> simp [chVoltage, populated, tickAt, Role.index, h, updVoltage]
theorem chRippleVoltage_reading (f : NumFormat α) (t : Ticks) (d : DecodeRun α) : (chRippleVoltage f t d).reading =
    if t[2] = 0#16 then d.reading else { d.reading with rippleVoltage := some (scaled f Config.kRipple (normOf f t .rippleVoltage)) } := by
  by_cases h : t[2] = 0#16 <;> simp [chRippleVoltage, populated, tickAt, Role.index, h, updRippleVoltage]
theorem chCurrent_reading (f : NumFormat α) (t : Ticks) (d : DecodeRun α) : (chCurrent f t d).reading =
    if t[3] = 0#16 then d.reading else { d.reading with current := some (scaled f Config.kCurrent (normOf f t .current)) } := by
  by_cases h : t[3] = 0#16 <;> simp [chCurrent, populated, tickAt, Role.index, h, updCurrent]
theorem chThrottle_reading (f : NumFormat α) (t : Ticks) (d : DecodeRun α) : (chThrottle f t d).reading =
    if t[4] = 0#16 then d.reading else { d.reading with throttle := some (scaled f Config.kThrottle (normOf f t .throttle)) } := by
  by_cases h : t[4] = 0#16 <;> simp [chThrottle, populated, tickAt, Role.index, h, updThrottle]
theorem chOutputPower_reading (f : NumFormat α) (t : Ticks) (d : DecodeRun α) : (chOutputPower f t d).reading =
    if t[5] = 0#16 then d.reading else { d.reading with outputPower := some (powerOf f (normOf f t .outputPower)) } := by
  by_cases h : t[5] = 0#16 <;> simp [chOutputPower, populated, tickAt, Role.index, h, updOutputPower]
theorem chRpm_reading (f : NumFormat α) (t : Ticks) (d : DecodeRun α) : (chRpm f t d).reading =
    if t[6] = 0#16 then d.reading else { d.reading with erpm := some (rpmOf f (normOf f t .rpm)) } := by
  by_cases h : t[6] = 0#16 <;> simp [chRpm, populated, tickAt, Role.index, h, updErpm]
theorem chBecVoltage_reading (f : NumFormat α) (t : Ticks) (d : DecodeRun α) : (chBecVoltage f t d).reading =
    if t[7] = 0#16 then d.reading else { d.reading with becVoltage := some (scaled f Config.kBecVoltage (normOf f t .becVoltage)) } := by
  by_cases h : t[7] = 0#16 <;> simp [chBecVoltage, populated, tickAt, Role.index, h, updBecVoltage]
theorem chBecCurrent_reading (f : NumFormat α) (t : Ticks) (d : DecodeRun α) : (chBecCurrent f t d).reading =
    if t[8] = 0#16 then d.reading else { d.reading with becCurrent := some (scaled f Config.kBecCurrent (normOf f t .becCurrent)) } := by
  by_cases h : t[8] = 0#16 <;> simp [chBecCurrent, populated, tickAt, Role.index, h, updBecCurrent]

/-- The temperature channel writes one field. -/
theorem chTemperature_reading (P : NumParams α) (t : Ticks) (d : DecodeRun α) : (chTemperature P t d).reading =
    { d.reading with temperature := (chTemperature P t d).reading.temperature } := by
  unfold chTemperature
  split
  · rfl
  · split <;> rfl

theorem allChannels_voltage (P : NumParams α) (t : Ticks) (d : DecodeRun α) : (allChannels P t d).reading.voltage =
    if t[1] = 0#16 then d.reading.voltage else some (scaled P.num Config.kVoltage (normOf P.num t .voltage)) := by
  rw [allChannels, chTemperature_reading]
  simp only [eightChannels, chVoltage_reading, chRippleVoltage_reading, chCurrent_reading, chThrottle_reading,
    chOutputPower_reading, chRpm_reading, chBecVoltage_reading, chBecCurrent_reading, apply_ite Reading.voltage, ite_self]
theorem allChannels_rippleVoltage (P : NumParams α) (t : Ticks) (d : DecodeRun α) : (allChannels P t d).reading.rippleVoltage =
    if t[2] = 0#16 then d.reading.rippleVoltage else some (scaled P.num Config.kRipple (normOf P.num t .rippleVoltage)) := by
  rw [allChannels, chTemperature_reading]
  simp only [eightChannels, chVoltage_reading, chRippleVoltage_reading, chCurrent_reading, chThrottle_reading,
    chOutputPower_reading, chRpm_reading, chBecVoltage_reading, chBecCurrent_reading, apply_ite Reading.rippleVoltage, ite_self]
theorem allChannels_current (P : NumParams α) (t : Ticks) (d : DecodeRun α) : (allChannels P t d).reading.current =
    if t[3] = 0#16 then d.reading.current else some (scaled P.num Config.kCurrent (normOf P.num t .current)) := by
  rw [allChannels, chTemperature_reading]
  simp only [eightChannels, chVoltage_reading, chRippleVoltage_reading, chCurrent_reading, chThrottle_reading,
    chOutputPower_reading, chRpm_reading, chBecVoltage_reading, chBecCurrent_reading, apply_ite Reading.current, ite_self]
theorem allChannels_throttle (P : NumParams α) (t : Ticks) (d : DecodeRun α) : (allChannels P t d).reading.throttle =
    if t[4] = 0#16 then d.reading.throttle else some (scaled P.num Config.kThrottle (normOf P.num t .throttle)) := by
  rw [allChannels, chTemperature_reading]
  simp only [eightChannels, chVoltage_reading, chRippleVoltage_reading, chCurrent_reading, chThrottle_reading,
    chOutputPower_reading, chRpm_reading, chBecVoltage_reading, chBecCurrent_reading, apply_ite Reading.throttle, ite_self]
theorem allChannels_outputPower (P : NumParams α) (t : Ticks) (d : DecodeRun α) : (allChannels P t d).reading.outputPower =
    if t[5] = 0#16 then d.reading.outputPower else some (powerOf P.num (normOf P.num t .outputPower)) := by
  rw [allChannels, chTemperature_reading]
  simp only [eightChannels, chVoltage_reading, chRippleVoltage_reading, chCurrent_reading, chThrottle_reading,
    chOutputPower_reading, chRpm_reading, chBecVoltage_reading, chBecCurrent_reading, apply_ite Reading.outputPower, ite_self]
theorem allChannels_erpm (P : NumParams α) (t : Ticks) (d : DecodeRun α) : (allChannels P t d).reading.erpm =
    if t[6] = 0#16 then d.reading.erpm else some (rpmOf P.num (normOf P.num t .rpm)) := by
  rw [allChannels, chTemperature_reading]
  simp only [eightChannels, chVoltage_reading, chRippleVoltage_reading, chCurrent_reading, chThrottle_reading,
    chOutputPower_reading, chRpm_reading, chBecVoltage_reading, chBecCurrent_reading, apply_ite Reading.erpm, ite_self]
theorem allChannels_becVoltage (P : NumParams α) (t : Ticks) (d : DecodeRun α) : (allChannels P t d).reading.becVoltage =
    if t[7] = 0#16 then d.reading.becVoltage else some (scaled P.num Config.kBecVoltage (normOf P.num t .becVoltage)) := by
  rw [allChannels, chTemperature_reading]
  simp only [eightChannels, chVoltage_reading, chRippleVoltage_reading, chCurrent_reading, chThrottle_reading,
    chOutputPower_reading, chRpm_reading, chBecVoltage_reading, chBecCurrent_reading, apply_ite Reading.becVoltage, ite_self]
theorem allChannels_becCurrent (P : NumParams α) (t : Ticks) (d : DecodeRun α) : (allChannels P t d).reading.becCurrent =
    if t[8] = 0#16 then d.reading.becCurrent else some (scaled P.num Config.kBecCurrent (normOf P.num t .becCurrent)) := by
  rw [allChannels, chTemperature_reading]
  simp only [eightChannels, chVoltage_reading, chRippleVoltage_reading, chCurrent_reading, chThrottle_reading,
    chOutputPower_reading, chRpm_reading, chBecVoltage_reading, chBecCurrent_reading, apply_ite Reading.becCurrent, ite_self]
/-- The first eight channels use no free value. -/
theorem eightChannels_free (f : NumFormat α) (t : Ticks) (d : DecodeRun α) : (eightChannels f t d).free = d.free := by
  simp only [eightChannels, chVoltage, chRippleVoltage, chCurrent, chThrottle, chOutputPower, chRpm, chBecVoltage,
    chBecCurrent, apply_ite DecodeRun.free, updVoltage, updRippleVoltage, updCurrent, updThrottle, updOutputPower,
    updErpm, updBecVoltage, updBecCurrent, ite_self]

/-- The first eight channels leave the temperature alone. -/
theorem eightChannels_temperature (f : NumFormat α) (t : Ticks) (d : DecodeRun α) :
    (eightChannels f t d).reading.temperature = d.reading.temperature := by
  simp only [eightChannels, chVoltage_reading, chRippleVoltage_reading, chCurrent_reading, chThrottle_reading,
    chOutputPower_reading, chRpm_reading, chBecVoltage_reading, chBecCurrent_reading, apply_ite Reading.temperature,
    ite_self]

/-! ### `decode` -/

theorem decodeWith_noReference {s : State α} (h : tickAt s.ticks .reference = 0#16)
    (ch : Ticks → DecodeRun α → DecodeRun α) (e : RecIdx) : decodeWith ch e s = (s, .noReference) := by
  simp [decodeWith, h]

theorem decodeWith_ok {s : State α} (h : tickAt s.ticks .reference ≠ 0#16)
    (ch : Ticks → DecodeRun α → DecodeRun α) (e : RecIdx) :
    decodeWith ch e s =
      ((s.setRecord e (ch s.ticks ⟨s.record e, false, s.free⟩).reading).withFree
          (ch s.ticks ⟨s.record e, false, s.free⟩).free,
        .ok (ch s.ticks ⟨s.record e, false, s.free⟩).changed) := by
  simp [decodeWith, h]

/-- All that a decode can change: one record and the count of free values. -/
theorem decodeWith_changes (ch : Ticks → DecodeRun α → DecodeRun α) (e : RecIdx) (s : State α) :
    ∃ (r : Reading α) (k : Nat), (decodeWith ch e s).1 = (s.setRecord e r).withFree k := by
  by_cases h : tickAt s.ticks .reference = 0#16
  · refine ⟨s.record e, s.free, ?_⟩
    rw [decodeWith_noReference h]
    simp [State.setRecord, State.withFree, State.record]
  · exact ⟨_, _, by rw [decodeWith_ok h]⟩

theorem decodeWith_record_other (ch : Ticks → DecodeRun α → DecodeRun α) {e f : RecIdx} (h : f ≠ e) (s : State α) :
    (decodeWith ch e s).1.record f = s.record f := by
  obtain ⟨r, k, q⟩ := decodeWith_changes ch e s
  rw [q]
  exact State.setRecord_record_other h r s

theorem decodeWith_poles {ch : Ticks → DecodeRun α → DecodeRun α} (h : ∀ t, KeepsPoles (ch t)) (e f : RecIdx) (s : State α) :
    ((decodeWith ch e s).1.record f).poles = (s.record f).poles := by
  by_cases hf : f = e
  · subst hf
    by_cases h0 : tickAt s.ticks .reference = 0#16
    · rw [decodeWith_noReference h0]
    · rw [decodeWith_ok h0]
      rw [State.withFree_record, State.setRecord_record_same]
      exact h s.ticks _
  · rw [decodeWith_record_other ch hf]

theorem decodeRow_noReference {s : State α} (h : tickAt s.ticks .reference = 0#16)
    (ch : Ticks → DecodeRun α → DecodeRun α) (e : RecIdx) :
    decodeRow ch e s = s.deliver { decoded := some .noReference } := by
  simp only [decodeRow, decodeWith_noReference h]

theorem decodeRow_ok {s : State α} (h : tickAt s.ticks .reference ≠ 0#16)
    (ch : Ticks → DecodeRun α → DecodeRun α) (e : RecIdx) :
    decodeRow ch e s =
      ((s.setRecord e (ch s.ticks ⟨s.record e, false, s.free⟩).reading).withFree
          (ch s.ticks ⟨s.record e, false, s.free⟩).free).deliver
        { decoded := some (.ok (ch s.ticks ⟨s.record e, false, s.free⟩).changed) } := by
  simp only [decodeRow, decodeWith_ok h]

/-- The decoder's normalised value is that of the statements (R106). -/
theorem normOf_eq (f : NumFormat α) (s : State α) (r : Role) : normOf f s.ticks r = s.normalizedIn f r.index := rfl

/-! ### Temperature (R116) -/

/-- The selected role by its three cases (R116). -/
theorem selectTemp_cases (t : Ticks) :
    (t[9] = 0#16 ∧ t[10] = 0#16 ∧ selectTemp t = none) ∨
    (t[9].toNat < t[10].toNat ∧ selectTemp t = some .temp2) ∨
    (t[10].toNat ≤ t[9].toNat ∧ t[9] ≠ 0#16 ∧ selectTemp t = some .temp1) := by
  by_cases h : t[9] = 0#16 ∧ t[10] = 0#16
  · exact .inl ⟨h.1, h.2, if_pos h⟩
  · by_cases h' : t[9].toNat < t[10].toNat
    · exact .inr (.inl ⟨h', (if_neg h).trans (if_pos h')⟩)
    · refine .inr (.inr ⟨not_lt.mp h', ?_, (if_neg h).trans (if_neg h')⟩)
      intro h0
      refine h ⟨h0, BitVec.eq_of_toNat_eq ?_⟩
      rw [h0] at h'
      simp only [BitVec.toNat_ofNat] at h' ⊢
      omega

/-- The temperature channel without a populated role (R116). -/
theorem chTemperature_none (P : NumParams α) {t : Ticks} (h : selectTemp t = none) (d : DecodeRun α) :
    chTemperature P t d = d := by
  simp [chTemperature, h]

/-- The temperature channel at a normalised value of 0 (R119). -/
theorem chTemperature_zero {P : NumParams α} {t : Ticks} {r : Role} (h : selectTemp t = some r)
    (h0 : P.num.eq (normOf P.num t r) (P.num.ofInt 0) = true) (d : DecodeRun α) :
    chTemperature P t d = { updTemperature P.num (P.thermAtZero d.free) d with free := d.free + 1 } := by
  simp [chTemperature, h, h0]

/-- The temperature channel elsewhere (R117, R118). -/
theorem chTemperature_nonzero {P : NumParams α} {t : Ticks} {r : Role} (h : selectTemp t = some r)
    (h0 : P.num.eq (normOf P.num t r) (P.num.ofInt 0) = false) (d : DecodeRun α) :
    chTemperature P t d = updTemperature P.num (therm P.num (normOf P.num t r)) d := by
  simp [chTemperature, h, h0]

end Sys2Proof.Machine.Block
end

