-- ==== Sys2Proof/Laws/Exact.lean ====
section
/-! SUPPORT. The exact format (R126): each of its operations is the operation on the real numbers that its operands are,
and what the decoder's operands are in it. -/

namespace Sys2Proof.Machine

/-! ### The operations are those of the real numbers -/

theorem denotes_exactAdd (a b : Exact) (r : ℝ) :
    denotes (exactAdd a b) r ↔ ∃ x y, denotes a x ∧ denotes b y ∧ r = x + y := by
  unfold exactAdd
  split
  · simp [denotes]
  · rfl

theorem denotes_exactSub (a b : Exact) (r : ℝ) :
    denotes (exactSub a b) r ↔ ∃ x y, denotes a x ∧ denotes b y ∧ r = x - y := by
  unfold exactSub
  split
  · simp [denotes]
  · rfl

theorem denotes_exactMul (a b : Exact) (r : ℝ) :
    denotes (exactMul a b) r ↔ ∃ x y, denotes a x ∧ denotes b y ∧ r = x * y := by
  unfold exactMul
  split
  · simp [denotes]
  · rfl

theorem denotes_exactDiv (a b : Exact) (r : ℝ) :
    denotes (exactDiv a b) r ↔ ∃ x y, denotes a x ∧ denotes b y ∧ r = x / y := by
  unfold exactDiv
  split
  · split
    · rfl
    · simp [denotes]
  · rfl

theorem denotes_exactLn (a : Exact) (r : ℝ) : denotes (exactLn a) r ↔ ∃ x, denotes a x ∧ r = Real.log x := by
  unfold exactLn
  split
  · split
    · next h => simp [denotes, h]
    · rfl
  · rfl

/-- An exact number is one real number. -/
theorem denotes_unique (a : Exact) : ∃! r, denotes a r := by
  have two : ∀ {a b : Exact} (g : ℝ → ℝ → ℝ), (∃! r, denotes a r) → (∃! r, denotes b r) →
      ∃! r, ∃ x y, denotes a x ∧ denotes b y ∧ r = g x y := by
    rintro a b g ⟨x, hx, ux⟩ ⟨y, hy, uy⟩
    refine ⟨g x y, ⟨x, y, hx, hy, rfl⟩, ?_⟩
    rintro _ ⟨x', y', hx', hy', rfl⟩
    rw [ux x' hx', uy y' hy']
  induction a with
  | rat q => exact ⟨q, rfl, fun _ h => h⟩
  | ln a ih =>
    obtain ⟨x, hx, ux⟩ := ih
    refine ⟨Real.log x, ⟨x, hx, rfl⟩, ?_⟩
    rintro _ ⟨x', hx', rfl⟩
    rw [ux x' hx']
  | add a b iha ihb => exact two (· + ·) iha ihb
  | sub a b iha ihb => exact two (· - ·) iha ihb
  | mul a b iha ihb => exact two (· * ·) iha ihb
  | div a b iha ihb => exact two (· / ·) iha ihb

@[simp] theorem denotes_rat (q : ℚ) (r : ℝ) : denotes (.rat q) r ↔ r = q := Iff.rfl

/-! ### The record's fields at the exact format -/

@[simp] theorem configured_num : configured.num = exactFormat := rfl
@[simp] theorem configured_thermAtZero : configured.thermAtZero = Config.thermAtZero := rfl
@[simp] theorem configured_unwritten : configured.unwritten = Config.unwrittenNum := rfl
@[simp] theorem exactFormat_ofInt (z : ℤ) : exactFormat.ofInt z = .rat z := rfl
@[simp] theorem exactFormat_literal (q : ℚ) : exactFormat.literal q = .rat q := rfl
@[simp] theorem exactFormat_eq : exactFormat.eq = exactEq := rfl
@[simp] theorem exactFormat_add (p q : ℚ) : exactFormat.add (.rat p) (.rat q) = .rat (p + q) := rfl
@[simp] theorem exactFormat_sub (p q : ℚ) : exactFormat.sub (.rat p) (.rat q) = .rat (p - q) := rfl
@[simp] theorem exactFormat_mul (p q : ℚ) : exactFormat.mul (.rat p) (.rat q) = .rat (p * q) := rfl
@[simp] theorem exactFormat_gt (p q : ℚ) : exactFormat.gt (.rat p) (.rat q) = decide (p > q) := rfl
@[simp] theorem exactFormat_round (q : ℚ) : exactFormat.round (.rat q) = roundHalfUp q := rfl
theorem exactFormat_div {q : ℚ} (h : q ≠ 0) (p : ℚ) : exactFormat.div (.rat p) (.rat q) = .rat (p / q) := if_neg h
@[simp] theorem exactEq_rat (p q : ℚ) : exactEq (.rat p) (.rat q) = decide (p = q) := by simp [exactEq]

/-! ### The decoder's operands -/

/-- `norm(i)` as a rational number (R106, R126). -/
theorem normOf_exact {t : Ticks} (h : tickAt t .reference ≠ 0#16) (r : Role) :
    normOf exactFormat t r =
      .rat ((((tickAt t r).toNat : ℚ) - ((offset t : ℕ) : ℚ)) / ((tickAt t .reference).toNat : ℚ)) := by
  have h0 : ((((tickAt t .reference).toNat : ℕ) : ℤ) : ℚ) ≠ 0 := by
    intro q
    refine h (BitVec.eq_of_toNat_eq ?_)
    simpa using q
  unfold normOf
  rw [exactFormat_ofInt, exactFormat_ofInt, exactFormat_div h0]
  push_cast
  rfl

@[simp] theorem scaled_exact (k n : ℚ) : scaled exactFormat k (.rat n) = .rat (n * k) := rfl

@[simp] theorem powerOf_exact (n : ℚ) :
    powerOf exactFormat (.rat n) = roundHalfUp (n * Config.kPower * Config.kPercent) := rfl

@[simp] theorem rpmOf_exact (n : ℚ) : rpmOf exactFormat (.rat n) = roundHalfUp (n * Config.kRpm) := rfl

/-- Above the threshold (R117). -/
theorem therm_saturated {n : ℚ} (h : 39 / 10 < n) : therm exactFormat (.rat n) = .rat (-40) := by
  have : n > Config.tempSatThreshold := by norm_num [Config.tempSatThreshold]; linarith
  simp [therm, this, Config.tempSatValue]

/-- Up to the threshold (R118). -/
theorem therm_formula {n : ℚ} (h : n ≤ 39 / 10) : therm exactFormat (.rat n) = thermistor exactFormat (.rat n) := by
  have : ¬n > Config.tempSatThreshold := by norm_num [Config.tempSatThreshold]; linarith
  simp [therm, this]

/-- The argument of the logarithm (R118); "`255 - d > 0`" (R119). -/
theorem thermArg_exact {n : ℚ} (h : n ≤ 39 / 10) : thermArg exactFormat (.rat n) =
    .rat (n * Config.thScale * Config.thNum / (Config.thFull - n * Config.thScale) / Config.thDen) := by
  have h1 : Config.thFull - n * Config.thScale ≠ 0 := by
    norm_num [Config.thFull, Config.thScale]
    intro q
    linarith
  have h2 : Config.thDen ≠ 0 := by norm_num [Config.thDen]
  simp only [thermArg, exactFormat_literal, exactFormat_mul, exactFormat_sub, exactFormat_div h1, exactFormat_div h2]

/-- `norm(s)` of the selected temperature role is `|T[9] - T[10]| / T[0]`, which "is never negative" (R116). -/
theorem offset_le_selectTemp {t : Ticks} {r : Role} (h : selectTemp t = some r) : offset t ≤ (tickAt t r).toNat := by
  unfold selectTemp at h
  split at h
  · cases h
  · split at h <;> cases h <;> simp only [offset] <;> omega

end Sys2Proof.Machine
end

