-- ==== Sys2Proof/Laws/Wire.lean ====
section
/-! SUPPORT. The wire's bit fields, one lemma per function: header tests as byte ranges (R62, R63), fields and ticks put
together and taken apart (R64, R65), and the XOR of a run of bytes (R66). -/

namespace Sys2Proof

/-! ### Headers -/

/-- A byte's high nibble is all ones exactly when the byte is 240 or more (R62). -/
theorem highNibble_iff (l : Byte) : (l &&& 0xF0#8) = 0xF0#8 ↔ 240 ≤ l.toNat := by
  revert l; decide

/-- A byte's bits 7:1 are `1010101` exactly when the byte is `AA` or `AB` (R63). -/
theorem highSeven_iff (l : Byte) : (l &&& 0xFE#8) = 0xAA#8 ↔ l.toNat = 170 ∨ l.toNat = 171 := by
  revert l; decide

/-- The telemetry header test as byte ranges (R62, R67). -/
theorem isTelemetryHeader_iff (h l : Byte) : isTelemetryHeader h l = true ↔ h = 0xFF#8 ∧ 240 ≤ l.toNat := by
  simp [isTelemetryHeader, highNibble_iff]

/-- The response header test as byte values (R63, R67). -/
theorem isResponseHeader_iff (h l : Byte) :
    isResponseHeader h l = true ↔ h = 0x55#8 ∧ (l.toNat = 170 ∨ l.toNat = 171) := by
  simp [isResponseHeader, highSeven_iff]

/-- "The two tests exclude each other" (R67, R82). -/
theorem header_tests_exclusive (h l : Byte) : ¬(isTelemetryHeader h l = true ∧ isResponseHeader h l = true) := by
  rw [isTelemetryHeader_iff, isResponseHeader_iff]
  rintro ⟨⟨rfl, -⟩, h, -⟩
  exact absurd h (by decide)

@[simp] theorem escField_telemetryLow (tp : Bool) (esc : EscId) : escField (telemetryLow tp esc) = esc := by
  revert tp esc; decide

@[simp] theorem tpField_telemetryLow (tp : Bool) (esc : EscId) : tpField (telemetryLow tp esc) = tp := by
  revert tp esc; decide

@[simp] theorem respField_responseLow (r : Bool) : respField (responseLow r) = r := by
  revert r; decide

@[simp] theorem isTelemetryHeader_telemetryLow (tp : Bool) (esc : EscId) :
    isTelemetryHeader 0xFF#8 (telemetryLow tp esc) = true := by
  revert tp esc; decide

@[simp] theorem isResponseHeader_responseLow (r : Bool) : isResponseHeader 0x55#8 (responseLow r) = true := by
  revert r; decide

@[simp] theorem isTelemetryHeader_responseLow (r : Bool) : isTelemetryHeader 0x55#8 (responseLow r) = false := by
  revert r; decide

/-- A low byte of a telemetry header is rebuilt from its fields (R64). -/
theorem telemetryLow_fields {l : Byte} (h : 240 ≤ l.toNat) : telemetryLow (tpField l) (escField l) = l := by
  revert l; decide

/-- A low byte of a response header is rebuilt from its bit (R64). -/
theorem responseLow_field {l : Byte} (h : l.toNat = 170 ∨ l.toNat = 171) : responseLow (respField l) = l := by
  revert l; decide

/-! ### Ticks -/

/-- `{hi, lo} = hi * 256 + lo`, never reduced (R42, R65). -/
theorem tickOf_toNat (hi lo : Byte) : (tickOf hi lo).toNat = hi.toNat * 256 + lo.toNat := by
  have := hi.isLt
  have := lo.isLt
  simp only [tickOf, BitVec.toNat_ofNat]
  omega

@[simp] theorem tickHi_tickOf (hi lo : Byte) : tickHi (tickOf hi lo) = hi := by
  have := hi.isLt
  have := lo.isLt
  apply BitVec.eq_of_toNat_eq
  simp only [tickHi, tickOf_toNat, BitVec.toNat_ofNat]
  omega

@[simp] theorem tickLo_tickOf (hi lo : Byte) : tickLo (tickOf hi lo) = lo := by
  have := lo.isLt
  apply BitVec.eq_of_toNat_eq
  simp only [tickLo, tickOf_toNat, BitVec.toNat_ofNat]
  omega

@[simp] theorem tickOf_tickHi_tickLo (t : Tick) : tickOf (tickHi t) (tickLo t) = t := by
  have := t.isLt
  apply BitVec.eq_of_toNat_eq
  simp only [tickHi, tickLo, tickOf_toNat, BitVec.toNat_ofNat]
  omega

/-! ### The XOR of a run of bytes -/

@[simp] theorem xorAll_nil : xorAll [] = 0#8 := rfl

theorem xor_foldl (bs : List Byte) (a : Byte) : bs.foldl (· ^^^ ·) a = a ^^^ xorAll bs := by
  induction bs generalizing a with
  | nil => simp
  | cons b bs ih => simp only [xorAll, List.foldl_cons] at *; rw [ih, ih (0#8 ^^^ b)]; simp [BitVec.xor_assoc]

theorem xorAll_cons (b : Byte) (bs : List Byte) : xorAll (b :: bs) = b ^^^ xorAll bs := by
  have := xor_foldl bs b
  simpa [xorAll] using this

theorem xorAll_append (as bs : List Byte) : xorAll (as ++ bs) = xorAll as ^^^ xorAll bs := by
  induction as with
  | nil => simp
  | cons a as ih => simp [xorAll_cons, ih, BitVec.xor_assoc]

@[simp] theorem xorAll_singleton (b : Byte) : xorAll [b] = b := by simp [xorAll_cons]

/-! ### Lengths (R60) -/

theorem tickBytes_length (ticks : Ticks) : (tickBytes ticks).length = 22 := by
  simp [tickBytes, List.length_flatMap]

theorem coveredBytes_length (tp : Bool) (esc : EscId) (ticks : Ticks) : (coveredBytes tp esc ticks).length = 24 := by
  simp [coveredBytes, tickBytes_length]

theorem telemetryBytes_length (tp : Bool) (esc : EscId) (ticks : Ticks) (ck : Byte) :
    (telemetryBytes tp esc ticks ck).length = 25 := by
  simp [telemetryBytes, coveredBytes_length]

/-- The tick bytes of a tick file, spelled out. -/
theorem tickBytes_eq (t : Ticks) : tickBytes t =
    [tickHi t[0], tickLo t[0], tickHi t[1], tickLo t[1], tickHi t[2], tickLo t[2], tickHi t[3], tickLo t[3],
     tickHi t[4], tickLo t[4], tickHi t[5], tickLo t[5], tickHi t[6], tickLo t[6], tickHi t[7], tickLo t[7],
     tickHi t[8], tickLo t[8], tickHi t[9], tickLo t[9], tickHi t[10], tickLo t[10]] := by
  obtain ⟨⟨l⟩, h⟩ := t
  match l, h with
  | [_, _, _, _, _, _, _, _, _, _, _], _ => rfl

end Sys2Proof
end

