-- ==== Sys2Proof/Laws/Parser.lean ====
section
/-! SUPPORT. What the frame parser can do: which operation `feed` runs at which `CNT`, that it touches the parser group
only, and that a per-byte row runs what the block selects. -/

namespace Sys2Proof.Machine.Block

variable {α : Type}

/-! ### The operation that `feed` runs (R80) -/

theorem feed_at_zero {s : State α} (h : s.cnt = 0) (b : Byte) : feed b s = hdrHi b s := by simp [feed, h]

theorem feed_at_one {s : State α} (h : s.cnt = 1) (b : Byte) : feed b s = hdrLo b s := by simp [feed, h]

theorem feed_at_even {s : State α} (h : 2 ≤ s.cnt) (h' : s.cnt ≤ 22) (e : s.cnt % 2 = 0) (b : Byte) :
    feed b s = dataHi b s := by
  have h0 : s.cnt ≠ 0 := by omega
  have h1 : s.cnt ≠ 1 := by omega
  simp [feed, h0, h1, h', e]

theorem feed_at_odd {s : State α} (h : 3 ≤ s.cnt) (h' : s.cnt ≤ 23) (e : s.cnt % 2 = 1) (b : Byte) :
    feed b s = dataLo b s := by
  have h0 : s.cnt ≠ 0 := by omega
  have h1 : s.cnt ≠ 1 := by omega
  simp [feed, h0, h1, h', e]

theorem feed_at_end {s : State α} (h : 24 ≤ s.cnt) (b : Byte) : feed b s = cksum b s := by
  have h0 : s.cnt ≠ 0 := by omega
  have h1 : s.cnt ≠ 1 := by omega
  have h2 : ¬(s.cnt ≤ 22 ∧ s.cnt % 2 = 0) := by omega
  have h3 : ¬(s.cnt ≤ 23 ∧ s.cnt % 2 = 1) := by omega
  simp [feed, h0, h1, h2, h3]

theorem feed_telemetryHeader {s : State α} {b : Byte} (h : s.cnt = 1) (ht : isTelemetryHeader s.hi b = true) :
    feed b s = hdrLoTelemetry b s := (feed_at_one h b).trans (if_pos ht)

theorem feed_responseHeader {s : State α} {b : Byte} (h : s.cnt = 1) (ht : isTelemetryHeader s.hi b = false)
    (hr : isResponseHeader s.hi b = true) : feed b s = hdrLoResponse b s :=
  (feed_at_one h b).trans ((if_neg (by simp [ht])).trans (if_pos hr))

theorem feed_failedPair {s : State α} {b : Byte} (h : s.cnt = 1) (ht : isTelemetryHeader s.hi b = false)
    (hr : isResponseHeader s.hi b = false) : feed b s = hdrLoFraming s :=
  (feed_at_one h b).trans ((if_neg (by simp [ht])).trans (if_neg (by simp [hr])))

theorem feed_match {s : State α} {b : Byte} (h : 24 ≤ s.cnt) (hb : b = s.ck) : feed b s = cksumMatch s :=
  (feed_at_end h b).trans (if_pos hb)

theorem feed_mismatch {s : State α} {b : Byte} (h : 24 ≤ s.cnt) (hb : b ≠ s.ck) : feed b s = cksumMismatch s :=
  (feed_at_end h b).trans (if_neg hb)

/-- The eight outcomes of R81 to R89, by their conditions. -/
theorem outcome_cases (b : Byte) (s : State α) :
    s.cnt = 0 ∨
    (s.cnt = 1 ∧ isTelemetryHeader s.hi b = true) ∨
    (s.cnt = 1 ∧ isTelemetryHeader s.hi b = false ∧ isResponseHeader s.hi b = true) ∨
    (s.cnt = 1 ∧ isTelemetryHeader s.hi b = false ∧ isResponseHeader s.hi b = false) ∨
    (2 ≤ s.cnt ∧ s.cnt ≤ 22 ∧ s.cnt % 2 = 0) ∨
    (3 ≤ s.cnt ∧ s.cnt ≤ 23 ∧ s.cnt % 2 = 1) ∨
    (24 ≤ s.cnt ∧ b = s.ck) ∨ (24 ≤ s.cnt ∧ b ≠ s.ck) := by
  have hc : s.cnt = 0 ∨ s.cnt = 1 ∨ (2 ≤ s.cnt ∧ s.cnt ≤ 22 ∧ s.cnt % 2 = 0) ∨
      (3 ≤ s.cnt ∧ s.cnt ≤ 23 ∧ s.cnt % 2 = 1) ∨ 24 ≤ s.cnt := by omega
  rcases hc with h | h | h | h | h
  · exact .inl h
  · rcases ht : isTelemetryHeader s.hi b with _ | _
    · rcases hr : isResponseHeader s.hi b with _ | _
      · exact .inr <| .inr <| .inr <| .inl ⟨h, rfl, rfl⟩
      · exact .inr <| .inr <| .inl ⟨h, rfl, rfl⟩
    · exact .inr <| .inl ⟨h, rfl⟩
  · exact .inr <| .inr <| .inr <| .inr <| .inl h
  · exact .inr <| .inr <| .inr <| .inr <| .inr <| .inl h
  · by_cases hb : b = s.ck
    · exact .inr <| .inr <| .inr <| .inr <| .inr <| .inr <| .inl ⟨h, hb⟩
    · exact .inr <| .inr <| .inr <| .inr <| .inr <| .inr <| .inr ⟨h, hb⟩

/-- All that `feed` can answer: the eight outcomes of R81 to R89, each with its condition. -/
theorem feed_cases (b : Byte) (s : State α) :
    (s.cnt = 0 ∧ feed b s = hdrHi b s) ∨
    (s.cnt = 1 ∧ isTelemetryHeader s.hi b = true ∧ feed b s = hdrLoTelemetry b s) ∨
    (s.cnt = 1 ∧ isTelemetryHeader s.hi b = false ∧ isResponseHeader s.hi b = true ∧ feed b s = hdrLoResponse b s) ∨
    (s.cnt = 1 ∧ isTelemetryHeader s.hi b = false ∧ isResponseHeader s.hi b = false ∧ feed b s = hdrLoFraming s) ∨
    (2 ≤ s.cnt ∧ s.cnt ≤ 22 ∧ s.cnt % 2 = 0 ∧ feed b s = dataHi b s) ∨
    (3 ≤ s.cnt ∧ s.cnt ≤ 23 ∧ s.cnt % 2 = 1 ∧ feed b s = dataLo b s) ∨
    (24 ≤ s.cnt ∧ b = s.ck ∧ feed b s = cksumMatch s) ∨
    (24 ≤ s.cnt ∧ b ≠ s.ck ∧ feed b s = cksumMismatch s) := by
  rcases outcome_cases b s with h | ⟨h, ht⟩ | ⟨h, ht, hr⟩ | ⟨h, ht, hr⟩ | ⟨h, h', e⟩ | ⟨h, h', e⟩ | ⟨h, hb⟩ | ⟨h, hb⟩
  · exact .inl ⟨h, feed_at_zero h b⟩
  · exact .inr <| .inl ⟨h, ht, feed_telemetryHeader h ht⟩
  · exact .inr <| .inr <| .inl ⟨h, ht, hr, feed_responseHeader h ht hr⟩
  · exact .inr <| .inr <| .inr <| .inl ⟨h, ht, hr, feed_failedPair h ht hr⟩
  · exact .inr <| .inr <| .inr <| .inr <| .inl ⟨h, h', e, feed_at_even h h' e b⟩
  · exact .inr <| .inr <| .inr <| .inr <| .inr <| .inl ⟨h, h', e, feed_at_odd h h' e b⟩
  · exact .inr <| .inr <| .inr <| .inr <| .inr <| .inr <| .inl ⟨h, hb, feed_match h hb⟩
  · exact .inr <| .inr <| .inr <| .inr <| .inr <| .inr <| .inr ⟨h, hb, feed_mismatch h hb⟩

/-- `feed` writes nothing outside the parser group (R90: "it touches nothing outside the parser group"). -/
theorem feed_outside (b : Byte) (s : State α) :
    (feed b s).1.nEsc = s.nEsc ∧ (feed b s).1.readings = s.readings ∧ (feed b s).1.tpReported = s.tpReported ∧
    (feed b s).1.input = s.input ∧ (feed b s).1.out = s.out ∧ (feed b s).1.free = s.free := by
  rcases feed_cases b s with ⟨_, f⟩ | ⟨_, _, f⟩ | ⟨_, _, _, f⟩ | ⟨_, _, _, f⟩ | ⟨_, _, _, f⟩ | ⟨_, _, _, f⟩ |
    ⟨_, _, f⟩ | ⟨_, _, f⟩ <;> rw [f] <;>
    simp [hdrHi, hdrLoTelemetry, hdrLoResponse, hdrLoFraming, dataHi, dataLo, cksumMatch, cksumMismatch]

@[simp] theorem feed_nEsc (b : Byte) (s : State α) : (feed b s).1.nEsc = s.nEsc := (feed_outside b s).1
@[simp] theorem feed_readings (b : Byte) (s : State α) : (feed b s).1.readings = s.readings := (feed_outside b s).2.1
@[simp] theorem feed_tpReported (b : Byte) (s : State α) : (feed b s).1.tpReported = s.tpReported :=
  (feed_outside b s).2.2.1
@[simp] theorem feed_input (b : Byte) (s : State α) : (feed b s).1.input = s.input := (feed_outside b s).2.2.2.1
@[simp] theorem feed_free (b : Byte) (s : State α) : (feed b s).1.free = s.free := (feed_outside b s).2.2.2.2.2
@[simp] theorem feed_record (b : Byte) (s : State α) (e : RecIdx) : (feed b s).1.record e = s.record e := by
  simp [State.record]

/-- A telemetry frame is accepted exactly by a matching checksum byte (R88), after which `CNT` is 0. -/
theorem feed_accepts {b : Byte} {s : State α} (h : (feed b s).2 = .pTelemetry) :
    24 ≤ s.cnt ∧ b = s.ck ∧ feed b s = cksumMatch s := by
  rcases feed_cases b s with ⟨_, f⟩ | ⟨_, _, f⟩ | ⟨_, _, _, f⟩ | ⟨_, _, _, f⟩ | ⟨_, _, _, f⟩ | ⟨_, _, _, f⟩ |
    ⟨h1, h2, f⟩ | ⟨_, _, f⟩
  all_goals first
    | exact ⟨h1, h2, f⟩
    | (rw [f] at h; simp [hdrHi, hdrLoTelemetry, hdrLoResponse, hdrLoFraming, dataHi, dataLo, cksumMismatch] at h)

/-- What was delivered last does not matter to `feed`. -/
theorem feed_withOut (o : List (Output α)) (b : Byte) (s : State α) :
    feed b (s.withOut o) = ((feed b s).1.withOut o, (feed b s).2) := by
  rcases outcome_cases b s with h | ⟨h, ht⟩ | ⟨h, ht, hr⟩ | ⟨h, ht, hr⟩ | ⟨h, h', e⟩ | ⟨h, h', e⟩ | ⟨h, hb⟩ | ⟨h, hb⟩
  · rw [feed_at_zero h, feed_at_zero (s := s.withOut o) h]; rfl
  · rw [feed_telemetryHeader h ht, feed_telemetryHeader (s := s.withOut o) h ht]; rfl
  · rw [feed_responseHeader h ht hr, feed_responseHeader (s := s.withOut o) h ht hr]; rfl
  · rw [feed_failedPair h ht hr, feed_failedPair (s := s.withOut o) h ht hr]; rfl
  · rw [feed_at_even h h' e, feed_at_even (s := s.withOut o) h h' e]; rfl
  · rw [feed_at_odd h h' e, feed_at_odd (s := s.withOut o) h h' e]; rfl
  · rw [feed_match h hb, feed_match (s := s.withOut o) h hb]; rfl
  · rw [feed_mismatch h hb, feed_mismatch (s := s.withOut o) h hb]; rfl

/-- The remaining input does not matter to `feed`. -/
theorem feed_withInput (l : List Input) (b : Byte) (s : State α) :
    feed b (s.withInput l) = ((feed b s).1.withInput l, (feed b s).2) := by
  rcases outcome_cases b s with h | ⟨h, ht⟩ | ⟨h, ht, hr⟩ | ⟨h, ht, hr⟩ | ⟨h, h', e⟩ | ⟨h, h', e⟩ | ⟨h, hb⟩ | ⟨h, hb⟩
  · rw [feed_at_zero h, feed_at_zero (s := s.withInput l) h]; rfl
  · rw [feed_telemetryHeader h ht, feed_telemetryHeader (s := s.withInput l) h ht]; rfl
  · rw [feed_responseHeader h ht hr, feed_responseHeader (s := s.withInput l) h ht hr]; rfl
  · rw [feed_failedPair h ht hr, feed_failedPair (s := s.withInput l) h ht hr]; rfl
  · rw [feed_at_even h h' e, feed_at_even (s := s.withInput l) h h' e]; rfl
  · rw [feed_at_odd h h' e, feed_at_odd (s := s.withInput l) h h' e]; rfl
  · rw [feed_match h hb, feed_match (s := s.withInput l) h hb]; rfl
  · rw [feed_mismatch h hb, feed_mismatch (s := s.withInput l) h hb]; rfl

/-! ### Rows -/

/-- A per-byte row answers what `feed` gives, provided its own operation is the selected one where its selector holds
(R80, log entry 7). -/
theorem parserRow_eq_feed {selected : Bool} {op : State α → State α × ParserResult} {b : Byte} {s : State α}
    (h : selected = true → op s = feed b s) :
    parserRow selected op b s = (feed b s).1.deliver { parser := some (feed b s).2 } := by
  cases selected with
  | false => simp [parserRow]
  | true => simp [parserRow, h rfl]

end Sys2Proof.Machine.Block
end

