-- ==== Sys2Proof/Laws/Ingest.lean ====
section
/-! SUPPORT. What a `BYTE` step can do (R100), and runs of `BYTE` steps (R41, R135). -/

namespace Sys2Proof.Machine.Block

variable {α : Type}

/-! ### One step -/

theorem recordOf_some {esc : EscId} {n : EscCount} {e : RecIdx} (h : recordOf esc n = some e) :
    esc.toNat = e.val ∧ e.val < n.val := by
  unfold recordOf at h
  split at h
  · cases h; exact ⟨rfl, by assumption⟩
  · cases h

theorem recordOf_eq_none {esc : EscId} {n : EscCount} : recordOf esc n = none ↔ n.val ≤ esc.toNat := by
  unfold recordOf
  split <;> simp <;> omega

/-- All the ways in which the action on a parser result can end (R100): nothing outside the outputs changes, but for an
accepted frame addressed to a record in use with a reference tick, which is decoded. -/
theorem acceptFrame_cases (P : NumParams α) (s : State α) :
    (recordOf s.escId s.nEsc = none ∧
      acceptFrame P s = s.deliver { parser := some .pTelemetry, result := some .nothing }) ∨
    (∃ e, recordOf s.escId s.nEsc = some e ∧ tickAt s.ticks .reference = 0#16 ∧
      acceptFrame P s = s.raise .noReference { parser := some .pTelemetry, decoded := some .noReference }) ∨
    (∃ e changed s', recordOf s.escId s.nEsc = some e ∧ tickAt s.ticks .reference ≠ 0#16 ∧
      decodeFrame P e s = (s', .ok changed) ∧
      acceptFrame P s = s'.reportTp.deliver
        { parser := some .pTelemetry, decoded := some (.ok changed), result := some (.telemetry e changed),
          events := decodeEvents e changed s' }) := by
  rcases hr : recordOf s.escId s.nEsc with _ | e
  · exact .inl ⟨rfl, by simp [acceptFrame, hr]⟩
  · by_cases h : tickAt s.ticks .reference = 0#16
    · exact .inr (.inl ⟨e, rfl, h, by simp [acceptFrame, hr, decodeFrame, decodeWith_noReference h]⟩)
    · exact .inr (.inr ⟨e, _, _, rfl, h, decodeWith_ok h (allChannels P) e,
        by simp [acceptFrame, hr, decodeFrame, decodeWith_ok h]⟩)

/-- The parser group and the count of records after the action on a parser result are those of `feed` (R100). -/
theorem actOn_parser (P : NumParams α) (p : ParserResult) (s : State α) :
    (actOn P p s).cnt = s.cnt ∧ (actOn P p s).hi = s.hi ∧ (actOn P p s).ck = s.ck ∧ (actOn P p s).kind = s.kind ∧
    (actOn P p s).escId = s.escId ∧ (actOn P p s).tp = s.tp ∧ (actOn P p s).resp = s.resp ∧
    (actOn P p s).ticks = s.ticks ∧ (actOn P p s).nEsc = s.nEsc ∧ (actOn P p s).input = s.input := by
  cases p with
  | pNone => exact ⟨rfl, rfl, rfl, rfl, rfl, rfl, rfl, rfl, rfl, rfl⟩
  | pResponse r => exact ⟨rfl, rfl, rfl, rfl, rfl, rfl, rfl, rfl, rfl, rfl⟩
  | pChecksumError => exact ⟨rfl, rfl, rfl, rfl, rfl, rfl, rfl, rfl, rfl, rfl⟩
  | pTelemetry =>
    rcases acceptFrame_cases P s with ⟨_, q⟩ | ⟨_, _, _, q⟩ | ⟨e, _, s', _, _, hd, q⟩
    · rw [actOn, q]; exact ⟨rfl, rfl, rfl, rfl, rfl, rfl, rfl, rfl, rfl, rfl⟩
    · rw [actOn, q]; exact ⟨rfl, rfl, rfl, rfl, rfl, rfl, rfl, rfl, rfl, rfl⟩
    · obtain ⟨r, k, hk⟩ := decodeWith_changes (allChannels P) e s
      have hs' : s' = (s.setRecord e r).withFree k := by rw [← hk, ← decodeFrame, hd]
      rw [actOn, q, hs']
      simp

/-- A step delivers exactly one output. -/
theorem actOn_out_length (P : NumParams α) (p : ParserResult) (s : State α) : (actOn P p s).out.length = 1 := by
  cases p with
  | pNone => rfl
  | pResponse r => rfl
  | pChecksumError => rfl
  | pTelemetry =>
    rcases acceptFrame_cases P s with ⟨_, q⟩ | ⟨_, _, _, q⟩ | ⟨_, _, _, _, _, _, q⟩ <;> simp [actOn, q]

theorem byteStep_out_length (P : NumParams α) (b : Byte) (s : State α) : (byteStep P b s).out.length = 1 := actOn_out_length P _ _

/-- What was delivered last does not matter to the action on a parser result. -/
theorem actOn_withOut (P : NumParams α) (o : List (Output α)) (p : ParserResult) (s : State α) : actOn P p (s.withOut o) = actOn P p s := by
  cases p with
  | pNone => rfl
  | pResponse r => rfl
  | pChecksumError => rfl
  | pTelemetry =>
    rcases acceptFrame_cases P s with ⟨hr, q⟩ | ⟨e, hr, h, q⟩ | ⟨e, c, s', hr, h, hd, q⟩
    · rw [actOn, actOn, q]; simp [acceptFrame, hr]
    · rw [actOn, actOn, q]; simp [acceptFrame, hr, decodeFrame, decodeWith, h, State.raise]
    · rw [actOn, actOn, q]
      rw [decodeFrame, decodeWith_ok h, Prod.mk.injEq] at hd
      obtain ⟨rfl, hc⟩ := hd
      simp only [acceptFrame, State.withOut_escId, State.withOut_nEsc, hr, decodeFrame]
      rw [decodeWith_ok (s := s.withOut o) h]
      cases hc
      simp only [State.reportTp_eq]
      rfl

/-- What was delivered last does not matter to a `BYTE` step. -/
theorem byteStep_withOut (P : NumParams α) (o : List (Output α)) (b : Byte) (s : State α) : byteStep P b (s.withOut o) = byteStep P b s := by
  simp only [byteStep, feed_withOut, actOn_withOut]

@[simp] theorem byteStep_input (P : NumParams α) (b : Byte) (s : State α) : (byteStep P b s).input = s.input := by
  rw [byteStep, (actOn_parser P _ _).2.2.2.2.2.2.2.2.2, feed_input]

@[simp] theorem byteStep_nEsc (P : NumParams α) (b : Byte) (s : State α) : (byteStep P b s).nEsc = s.nEsc := by
  rw [byteStep, (actOn_parser P _ _).2.2.2.2.2.2.2.2.1, feed_nEsc]

/-- The remaining input does not matter to the action on a parser result. -/
theorem actOn_withInput (P : NumParams α) (l : List Input) (p : ParserResult) (s : State α) :
    actOn P p (s.withInput l) = (actOn P p s).withInput l := by
  cases p with
  | pNone => rfl
  | pResponse r => rfl
  | pChecksumError => rfl
  | pTelemetry =>
    rcases acceptFrame_cases P s with ⟨hr, q⟩ | ⟨e, hr, h, q⟩ | ⟨e, c, s', hr, h, hd, q⟩
    · rw [actOn, actOn, q]; simp only [acceptFrame, State.withInput_escId, State.withInput_nEsc, hr]; rfl
    · rw [actOn, actOn, q]
      simp only [acceptFrame, State.withInput_escId, State.withInput_nEsc, hr, decodeFrame]
      rw [decodeWith_noReference (s := s.withInput l) h]; rfl
    · rw [actOn, actOn, q]
      rw [decodeFrame, decodeWith_ok h, Prod.mk.injEq] at hd
      obtain ⟨rfl, hc⟩ := hd
      simp only [acceptFrame, State.withInput_escId, State.withInput_nEsc, hr, decodeFrame]
      rw [decodeWith_ok (s := s.withInput l) h]
      cases hc
      simp only [State.reportTp_eq]
      rfl

/-- The remaining input does not matter to a `BYTE` step. -/
theorem byteStep_withInput (P : NumParams α) (l : List Input) (b : Byte) (s : State α) :
    byteStep P b (s.withInput l) = (byteStep P b s).withInput l := by
  simp only [byteStep, feed_withInput, actOn_withInput]

/-- What the action on a parser result leaves in a record: what was there, or, after an accepted frame addressed to it with
a reference, what a decode of the ticks makes of it (R101 to R103). -/
theorem actOn_record (P : NumParams α) (p : ParserResult) (s : State α) (e : RecIdx) :
    (actOn P p s).record e = s.record e ∨
    (p = .pTelemetry ∧ e.val < s.nEsc.val ∧ s.ticks[0] ≠ 0#16 ∧
      (actOn P p s).record e = (allChannels P s.ticks ⟨s.record e, false, s.free⟩).reading) := by
  cases p with
  | pNone => exact .inl rfl
  | pResponse r => exact .inl rfl
  | pChecksumError => exact .inl rfl
  | pTelemetry =>
    rcases acceptFrame_cases P s with ⟨_, q⟩ | ⟨_, _, _, q⟩ | ⟨f, c, s', hr, h0, hd, q⟩
    · exact .inl (by rw [actOn, q]; rfl)
    · exact .inl (by rw [actOn, q]; rfl)
    · rw [decodeFrame, decodeWith_ok h0, Prod.mk.injEq] at hd
      obtain ⟨rfl, -⟩ := hd
      rw [actOn, q, State.deliver_record, State.reportTp_record, State.withFree_record]
      by_cases hf : e = f
      · subst hf
        exact .inr ⟨rfl, (recordOf_some hr).2, h0, State.setRecord_record_same _ _ _⟩
      · exact .inl (State.setRecord_record_other hf _ _)

/-- What a `BYTE` step leaves in a record (R100). -/
theorem byteStep_record (P : NumParams α) (b : Byte) (s : State α) (e : RecIdx) :
    (byteStep P b s).record e = s.record e ∨
    (e.val < s.nEsc.val ∧ s.ticks[0] ≠ 0#16 ∧
      (byteStep P b s).record e = (allChannels P s.ticks ⟨s.record e, false, s.free⟩).reading) := by
  rcases actOn_record P (feed b s).2 (feed b s).1 e with h | ⟨hp, h1, h2, h3⟩
  · exact .inl (by rw [byteStep, h, feed_record])
  · have hf := (feed_accepts hp).2.2
    refine .inr ⟨by rwa [feed_nEsc] at h1, ?_, ?_⟩
    · rw [hf] at h2; exact h2
    · rw [byteStep, h3, feed_record, feed_free, hf]; rfl

/-! ### Runs of steps -/

@[simp] theorem byteSteps_nil (P : NumParams α) (s : State α) : byteSteps P [] s = s.withOut [] := rfl

theorem byteSteps_cons (P : NumParams α) (b : Byte) (bs : List Byte) (s : State α) :
    byteSteps P (b :: bs) s =
      (byteSteps P bs (byteStep P b s)).withOut ((byteStep P b s).out ++ (byteSteps P bs (byteStep P b s)).out) := rfl

theorem byteSteps_withOut (P : NumParams α) (o : List (Output α)) (bs : List Byte) (s : State α) : byteSteps P bs (s.withOut o) = byteSteps P bs s := by
  cases bs with
  | nil => rfl
  | cons b bs => simp only [byteSteps_cons, byteStep_withOut]

/-- A run of steps of `as` and then `bs` (R41: "the block sees no array boundary"). -/
theorem byteSteps_append (P : NumParams α) (as bs : List Byte) (s : State α) :
    byteSteps P (as ++ bs) s =
      (byteSteps P bs (byteSteps P as s)).withOut ((byteSteps P as s).out ++ (byteSteps P bs (byteSteps P as s)).out) := by
  induction as generalizing s with
  | nil => simp [byteSteps_withOut]
  | cons a as ih =>
    simp only [List.cons_append, byteSteps_cons, ih, byteSteps_withOut, State.withOut_out, State.withOut_withOut,
      List.append_assoc]

/-- "Each byte yields its own result" (R135). -/
theorem byteSteps_out_length (P : NumParams α) (bs : List Byte) (s : State α) : (byteSteps P bs s).out.length = bs.length := by
  induction bs generalizing s with
  | nil => rfl
  | cons b bs ih =>
    simp only [byteSteps_cons, State.withOut_out, List.length_append, byteStep_out_length, ih, List.length_cons]
    omega

@[simp] theorem byteSteps_input (P : NumParams α) (bs : List Byte) (s : State α) : (byteSteps P bs s).input = s.input := by
  induction bs generalizing s with
  | nil => rfl
  | cons b bs ih => simp [byteSteps_cons, ih]

theorem byteSteps_withInput (P : NumParams α) (l : List Input) (bs : List Byte) (s : State α) :
    byteSteps P bs (s.withInput l) = (byteSteps P bs s).withInput l := by
  induction bs generalizing s with
  | nil => rfl
  | cons b bs ih => simp only [byteSteps_cons, byteStep_withInput, ih]; rfl

/-- What every `BYTE` step keeps, and what does not look at the outputs, every run of steps keeps. -/
theorem byteSteps_keeps (P : NumParams α) {Q : State α → Prop} (hout : ∀ s o, Q s → Q (s.withOut o))
    (hbyte : ∀ b s, Q s → Q (byteStep P b s)) (bs : List Byte) {s : State α} (h : Q s) : Q (byteSteps P bs s) := by
  induction bs generalizing s with
  | nil => exact hout s [] h
  | cons b bs ih => exact hout _ _ (ih (hbyte b s h))

end Sys2Proof.Machine.Block
end

