-- ==== Sys2Proof/Laws/PerInstr.lean ====
section
/-! SUPPORT. Facts about every operation as syntax, one lemma per constructor. -/

namespace Sys2Proof.Laws.EncodeLength

/-- The length in bytes of an operation's encoding: the frame lengths of R60, and one byte for a per-byte row (R70). -/
def length : Instr → Nat
  | .telemetry _ _ _ _ => Config.frameLenTelemetry
  | .response _ => Config.frameLenResponse
  | .framingError _ _ => 2
  | _ => 1

/-- An operation that has a byte encoding has one of its format's length. -/
def Statement (i : Instr) : Prop := ∀ bs, encode i = some bs → bs.length = length i

theorem telemetry (tp : Bool) (esc : EscId) (ticks : Ticks) (ck : Byte) : Statement (.telemetry tp esc ticks ck) := by
  rintro _ ⟨⟩; exact telemetryBytes_length tp esc ticks ck
theorem response (r : Bool) : Statement (.response r) := by rintro _ ⟨⟩; rfl
theorem framingError (h l : Byte) : Statement (.framingError h l) := by rintro _ ⟨⟩; rfl
theorem hdrHi (b : Byte) : Statement (.hdrHi b) := by rintro _ ⟨⟩; rfl
theorem hdrLo (b : Byte) : Statement (.hdrLo b) := by rintro _ ⟨⟩; rfl
theorem hdrLoTelemetry (b : Byte) : Statement (.hdrLoTelemetry b) := by rintro _ ⟨⟩; rfl
theorem hdrLoResponse (b : Byte) : Statement (.hdrLoResponse b) := by rintro _ ⟨⟩; rfl
theorem hdrLoFraming (b : Byte) : Statement (.hdrLoFraming b) := by rintro _ ⟨⟩; rfl
theorem dataHi (b : Byte) : Statement (.dataHi b) := by rintro _ ⟨⟩; rfl
theorem dataLo (b : Byte) : Statement (.dataLo b) := by rintro _ ⟨⟩; rfl
theorem cksumMatch (b : Byte) : Statement (.cksumMatch b) := by rintro _ ⟨⟩; rfl
theorem cksumMismatch (b : Byte) : Statement (.cksumMismatch b) := by rintro _ ⟨⟩; rfl
theorem ingest (b : Byte) : Statement (.ingest b) := by rintro _ ⟨⟩; rfl
theorem decode (e : RecIdx) : Statement (.decode e) := by rintro _ ⟨⟩
theorem chVoltage (e : RecIdx) : Statement (.chVoltage e) := by rintro _ ⟨⟩
theorem chRippleVoltage (e : RecIdx) : Statement (.chRippleVoltage e) := by rintro _ ⟨⟩
theorem chCurrent (e : RecIdx) : Statement (.chCurrent e) := by rintro _ ⟨⟩
theorem chThrottle (e : RecIdx) : Statement (.chThrottle e) := by rintro _ ⟨⟩
theorem chOutputPower (e : RecIdx) : Statement (.chOutputPower e) := by rintro _ ⟨⟩
theorem chRpm (e : RecIdx) : Statement (.chRpm e) := by rintro _ ⟨⟩
theorem chBecVoltage (e : RecIdx) : Statement (.chBecVoltage e) := by rintro _ ⟨⟩
theorem chBecCurrent (e : RecIdx) : Statement (.chBecCurrent e) := by rintro _ ⟨⟩
theorem chTemperature (e : RecIdx) : Statement (.chTemperature e) := by rintro _ ⟨⟩
theorem tableReset (n : Int) : Statement (.tableReset n) := by rintro _ ⟨⟩
theorem setPoles (e : Nat) (p : Byte) : Statement (.setPoles e p) := by rintro _ ⟨⟩
theorem reset : Statement .reset := by rintro _ ⟨⟩
theorem read (p : Port) : Statement (.read p) := by rintro _ ⟨⟩

end Sys2Proof.Laws.EncodeLength
end

