-- ==== Sys2Proof/Laws/Step.lean ====
section
/-! SUPPORT. What a step of the machine can do: the operations that an input item can ask for, and the one principle by
which an invariant of the block is carried through every step. -/

namespace Sys2Proof

/-- The operations that a run of bytes can ask for. -/
theorem decode_cases {bs rest : List Byte} {i : Instr} (h : decode bs = .ok (i, rest)) :
    (∃ tp esc ticks ck, i = .telemetry tp esc ticks ck) ∨ (∃ r, i = .response r) ∨ (∃ h l, i = .framingError h l) := by
  match bs with
  | [] => simp [decode] at h
  | [_] => simp [decode] at h
  | a :: l :: bs =>
    simp only [decode] at h
    split at h
    · split at h
      · simp only [Except.ok.injEq, Prod.mk.injEq] at h
        exact .inl ⟨_, _, _, _, h.1.symm⟩
      · cases h
    · split at h
      · simp only [Except.ok.injEq, Prod.mk.injEq] at h
        exact .inr (.inl ⟨_, h.1.symm⟩)
      · simp only [Except.ok.injEq, Prod.mk.injEq] at h
        exact .inr (.inr ⟨_, _, h.1.symm⟩)

/-- The operations that an input item can ask for. -/
theorem decodeInput_cases {x : Input} {i : Instr} {bs : List Byte} (h : decodeInput x = some (i, bs)) :
    (∃ tp esc ticks ck, i = .telemetry tp esc ticks ck) ∨ (∃ r, i = .response r) ∨
    (∃ h l, i = .framingError h l) ∨ (∃ b, i = .ingest b) ∨ (∃ n, i = .tableReset n) ∨
    (∃ e p, i = .setPoles e p) ∨ i = .reset ∨ (∃ p, i = .read p) := by
  cases x with
  | byte b => cases h; exact .inr <| .inr <| .inr <| .inl ⟨_, rfl⟩
  | bytes as =>
    cases as with
    | nil => cases h
    | cons a as =>
      simp only [decodeInput, decodeArray] at h
      split at h
      · rename_i r hd
        cases h
        rcases decode_cases hd with h | h | h
        · exact .inl h
        · exact .inr <| .inl h
        · exact .inr <| .inr <| .inl h
      · cases h; exact .inr <| .inr <| .inr <| .inl ⟨_, rfl⟩
  | tableReset n => cases h; exact .inr <| .inr <| .inr <| .inr <| .inl ⟨_, rfl⟩
  | setPoles e p => cases h; exact .inr <| .inr <| .inr <| .inr <| .inr <| .inl ⟨_, _, rfl⟩
  | reset => cases h; exact .inr <| .inr <| .inr <| .inr <| .inr <| .inr <| .inl rfl
  | read p => cases h; exact .inr <| .inr <| .inr <| .inr <| .inr <| .inr <| .inr ⟨_, rfl⟩

namespace Machine

/-- Every operation that an input sequence asks for is one that an input item can ask for. -/
theorem nextInput_cases {l rest : List Input} {i : Instr} (h : nextInput l = some (i, rest)) :
    ∃ x bs, x ∈ l ∧ decodeInput x = some (i, bs) := by
  induction l with
  | nil => cases h
  | cons x l ih =>
    simp only [nextInput] at h
    split at h
    · rename_i j bs hd
      cases h
      exact ⟨x, bs, by simp, hd⟩
    · obtain ⟨y, bs, hy, hd⟩ := ih h
      exact ⟨y, bs, by simp [hy], hd⟩

/-- Each operation of the machine is that of the block in the configured number format. -/
theorem exec_eq_runAt (i : Instr) (s : State) : exec i s = .next (Block.runAt configured i s) := by
  cases i <;> rfl

/-- A step of the machine is that of the block in the configured number format. -/
theorem step_eq_stepAt (s : State) : step s = .next (Block.stepAt configured s) := by
  rcases h : nextInput s.input with _ | ⟨i, rest⟩
  · simp only [step, Block.stepAt, h]; rfl
  · simp only [step, Block.stepAt, h, exec_eq_runAt]

namespace Block

variable {α : Type}

/-- How an invariant goes through a step, in any number format: it does not look at the model's own fields, and the `BYTE`
step and the three host operations keep it. -/
theorem stepAt_keeps (P : NumParams α) {Q : State α → Prop}
    (hin : ∀ s l, Q s → Q (s.withInput l)) (hout : ∀ s o, Q s → Q (s.withOut o)) (hfree : ∀ s k, Q s → Q (s.withFree k))
    (hbyte : ∀ b s, Q s → Q (byteStep P b s))
    (htable : ∀ s (c : EscCount), Q s → c ≠ 0 → Q (s.resetTable c))
    (hpoles : ∀ s (e : RecIdx) (p : Byte), Q s → e.val < s.nEsc.val → p.toNat % 2 = 0 → 2 ≤ p.toNat →
      Q (s.setRecord e { s.record e with poles := p }))
    (hreset : Q State.initial) {s : State α} (h : Q s) : Q (stepAt P s) := by
  have hrun : ∀ bs s, Q s → Q (byteSteps P bs s) := fun bs s h => byteSteps_keeps P hout hbyte bs h
  unfold stepAt
  split
  · exact hout _ [] (hin s [] h)
  · rename_i i rest hn
    obtain ⟨x, bs, -, hd⟩ := nextInput_cases hn
    have h' := hin s rest h
    generalize s.withInput rest = u at h'
    rcases decodeInput_cases hd with ⟨tp, esc, ticks, ck, rfl⟩ | ⟨r, rfl⟩ | ⟨a, l, rfl⟩ | ⟨b, rfl⟩ | ⟨n, rfl⟩ |
      ⟨e, p, rfl⟩ | rfl | ⟨p, rfl⟩
    · exact hrun _ _ h'
    · exact hrun _ _ h'
    · exact hrun _ _ h'
    · exact hbyte _ _ h'
    · simp only [runAt, runTableReset]
      split
      · rename_i c hc
        have hc' : c ≠ 0 := by
          unfold countOf at hc
          split at hc
          · cases hc; decide
          · split at hc
            · cases hc; decide
            · cases hc
        exact hout _ _ (htable _ c h' hc')
      · exact hout _ _ h'
    · simp only [runAt, runSetPoles]
      split
      · rename_i i hi
        unfold poleTarget at hi
        split at hi
        · rename_i hc
          cases hi
          exact hout _ _ (hpoles _ ⟨e, _⟩ p h' hc.1 hc.2.1 hc.2.2)
        · cases hi
      · exact hout _ _ h'
    · exact hout _ _ (hfree _ _ (hin _ _ hreset))
    · exact hout _ _ (hfree _ _ h')

end Block

/-- `Block.stepAt_keeps` for the machine. -/
theorem step_keeps {Q : State → Prop}
    (hin : ∀ (s : State) l, Q s → Q (s.withInput l)) (hout : ∀ (s : State) o, Q s → Q (s.withOut o))
    (hfree : ∀ (s : State) k, Q s → Q (s.withFree k))
    (hbyte : ∀ b s, Q s → Q (Block.byteStep configured b s))
    (htable : ∀ (s : State) (c : EscCount), Q s → c ≠ 0 → Q (s.resetTable c))
    (hpoles : ∀ (s : State) (e : RecIdx) (p : Byte), Q s → e.val < s.nEsc.val → p.toNat % 2 = 0 → 2 ≤ p.toNat →
      Q (s.setRecord e { s.record e with poles := p }))
    (hreset : Q State.reset) {s t : State} (h : Q s) (hs : step s = .next t) : Q t := by
  rw [step_eq_stepAt] at hs
  cases hs
  exact Block.stepAt_keeps configured hin hout hfree hbyte htable hpoles hreset h

end Machine

end Sys2Proof
end

