-- ==== Sys2Proof/Tests/Slice0.lean ====
section
/-! SUPPORT. The model's own tests: what `WellFormed` refuses, what each operation's word decodes to, one step of each
operation, and a concrete state and operands for the hypotheses of every statement.  Expected values come from
95_test_vectors.md (V and S numbers) and from the rules' own worked examples. -/

namespace Sys2Proof.Tests

open Sys2Proof.Machine

/-! ### Small states -/

/-- The parser at a count, with a held byte and a running checksum. -/
def parserAt (cnt : Nat) (hi ck : Byte) : State := { State.reset with cnt := cnt, hi := hi, ck := ck }

/-- A telemetry frame accumulated up to its checksum byte, with `n` records in use. -/
def frameAt (n : EscCount) (esc : EscId) (tp : Bool) (ticks : Ticks) (ck : Byte) : State :=
  { State.reset with cnt := 24, kind := .telemetry, nEsc := n, escId := esc, tp := tp, ticks := ticks, ck := ck }

/-- The ticks of V10. -/
def ticksV10 : Ticks := #v[1000, 1240, 510, 750, 2000, 2500, 1480, 1750, 625, 2500, 500]

/-- The ticks of V11. -/
def ticksV11 : Ticks := #v[1000, 100, 0, 0, 0, 25, 300, 0, 0, 500, 900]

/-- Ticks with a reference and the two temperatures only. -/
def ticksTemp (ref t1 t2 : Tick) : Ticks := #v[ref, 0, 0, 0, 0, 0, 0, 0, 0, t1, t2]

/-- The ticks of the frame `A` of 95_test_vectors.md. -/
def ticksA : Ticks := #v[1000, 600, 0, 0, 0, 0, 0, 0, 0, 0, 0]

/-- A record with every field written. -/
def fullRecord : Reading :=
  { voltage := some (.rat 12), rippleVoltage := some (.rat 1), current := some (.rat 2), throttle := some (.rat 1),
    outputPower := some 50, erpm := some 15313, becVoltage := some (.rat 5), becCurrent := some (.rat 0),
    temperature := some (.rat (-40)), poles := 4#8 }

/-- A step that answers a next state of which something holds. -/
def nextHas (o : Host.Outcome State Fault Refusal) (p : State → Bool) : Bool :=
  match o with
  | .next t => p t
  | .fault _ => false
  | .refused _ => false

/-! ### WellFormed: the one check, refused where it fails -/

theorem test_wellFormed_refuses_telemetry_pair : (Instr.framingError 0xFF 0xF0).wellFormed = false := by decide
theorem test_wellFormed_refuses_last_telemetry_pair : (Instr.framingError 0xFF 0xFF).wellFormed = false := by decide
theorem test_wellFormed_refuses_response_pair : (Instr.framingError 0x55 0xAA).wellFormed = false := by decide
theorem test_wellFormed_refuses_other_response_pair : (Instr.framingError 0x55 0xAB).wellFormed = false := by decide
theorem test_wellFormed_accepts_failed_pair : (Instr.framingError 0xFF 0xEF).wellFormed = true := by decide

/-! ### Decoding: words written out from the spec's encodings -/

/-- R61: the bytes of frame `A`, with ESC 0 and `tp` 0. -/
theorem test_decode_telemetry :
    decode [0xFF, 0b11110000, 0x03, 0xE8, 0x02, 0x58, 0, 0, 0, 0, 0, 0, 0, 0, 0, 0, 0, 0, 0, 0, 0, 0, 0, 0, 0xBE] =
      .ok (.telemetry false 0 ticksA 0xBE, []) := by rfl
/-- R61, R64: the header `1111tEEE` with `t` 1 and `EEE` 101, the ticks of V10, and a byte left over. -/
theorem test_decode_telemetry_fields :
    decode [0xFF, 0b11111101, 0x03, 0xE8, 0x04, 0xD8, 0x01, 0xFE, 0x02, 0xEE, 0x07, 0xD0, 0x09, 0xC4, 0x05, 0xC8,
        0x06, 0xD6, 0x02, 0x71, 0x09, 0xC4, 0x01, 0xF4, 0x6A, 0x55] =
      .ok (.telemetry true 5 ticksV10 0x6A, [0x55]) := by rfl
theorem test_decode_response_0 : decode [0b01010101, 0b10101010] = .ok (.response false, []) := by rfl
theorem test_decode_response_1 : decode [0b01010101, 0b10101011, 1] = .ok (.response true, [1]) := by rfl
theorem test_decode_framing : decode [0xFF, 0xEF] = .ok (.framingError 0xFF 0xEF, []) := by rfl
theorem test_decode_framing_swapped : decode [0xAA, 0x55] = .ok (.framingError 0xAA 0x55, []) := by rfl
theorem test_decode_rejects_nothing : decode [] = .error .empty := by rfl
theorem test_decode_rejects_lone : decode [0xFF] = .error .loneByte := by rfl
theorem test_decode_rejects_short : decode (0xFF :: 0xF0 :: List.replicate 22 0) = .error .shortTelemetry := by rfl
/-- R71, R72: the checksum of `TELEM esc=0 tp=0 ref=1000 v=600` is `BE`. -/
theorem test_telem_notation :
    encode (telem false 0 (roleTicks (ref := 1000) (v := 600))) =
      some ([0xFF, 0xF0, 0x03, 0xE8, 0x02, 0x58] ++ List.replicate 18 0 ++ [0xBE]) := by rfl

/-! The per-byte rows: the selectors of the opcode table (R80, R82, R88, R89). -/

theorem test_select_hdrHi : selectOp 0 0x12 0x34 0xFF = .hdrHi 0xFF := by rfl
theorem test_select_telemetry : selectOp 1 0xFF 0xFF 0xF9 = .hdrLoTelemetry 0xF9 := by rfl
theorem test_select_response : selectOp 1 0x55 0x55 0xAB = .hdrLoResponse 0xAB := by rfl
theorem test_select_framing : selectOp 1 0xFF 0xFF 0x55 = .hdrLoFraming 0x55 := by rfl
theorem test_select_dataHi : selectOp 2 0xFF 0x0F 0x55 = .dataHi 0x55 ∧ selectOp 22 0 0 0 = .dataHi 0 := by decide
theorem test_select_dataLo : selectOp 3 0x03 0x0C 0xE8 = .dataLo 0xE8 ∧ selectOp 23 0 0 0 = .dataLo 0 := by decide
theorem test_select_match : selectOp 24 0 0xBE 0xBE = .cksumMatch 0xBE := by rfl
theorem test_select_mismatch : selectOp 24 0 0xBE 0xBF = .cksumMismatch 0xBF := by rfl

/-! The decode operation and the channels: the routing of R101 and the roles of R19. -/

theorem test_select_decode : selectDecode 1 2 = some (.decode 1) ∧ selectDecode 1 1 = none := by decide
theorem test_select_voltage : selectChannel 0 .voltage = some (.chVoltage 0) ∧ Role.index .voltage = 1 := by decide
theorem test_select_ripple :
    selectChannel 0 .rippleVoltage = some (.chRippleVoltage 0) ∧ Role.index .rippleVoltage = 2 := by decide
theorem test_select_current : selectChannel 0 .current = some (.chCurrent 0) ∧ Role.index .current = 3 := by decide
theorem test_select_throttle : selectChannel 0 .throttle = some (.chThrottle 0) ∧ Role.index .throttle = 4 := by decide
theorem test_select_power :
    selectChannel 0 .outputPower = some (.chOutputPower 0) ∧ Role.index .outputPower = 5 := by decide
theorem test_select_rpm : selectChannel 0 .rpm = some (.chRpm 0) ∧ Role.index .rpm = 6 := by decide
theorem test_select_becVoltage :
    selectChannel 0 .becVoltage = some (.chBecVoltage 0) ∧ Role.index .becVoltage = 7 := by decide
theorem test_select_becCurrent :
    selectChannel 0 .becCurrent = some (.chBecCurrent 0) ∧ Role.index .becCurrent = 8 := by decide
theorem test_select_temperature :
    selectChannel 1 .temp1 = some (.chTemperature 1) ∧ selectChannel 1 .temp2 = some (.chTemperature 1) ∧
    Role.index .temp1 = 9 ∧ Role.index .temp2 = 10 ∧ selectChannel 1 .reference = none := by decide

/-! The input events and ports (R130, R133), and the table's own words. -/

theorem test_input_byte : decodeInput (.byte 0x55) = some (.ingest 0x55, []) := by rfl
theorem test_input_tableReset : decodeInput (.tableReset 2) = some (.tableReset 2, []) := by rfl
theorem test_input_setPoles : decodeInput (.setPoles 1 4) = some (.setPoles 1 4, []) := by rfl
theorem test_input_reset : decodeInput .reset = some (.reset, []) := by rfl
theorem test_input_read : decodeInput (.read (.shaftRpm 1)) = some (.read (.shaftRpm 1), []) := by rfl
/-- R61: `11111111 1111tEEE` with `t` 1 and `EEE` 010. -/
theorem test_tableWord_telemetry :
    decodeTableWord 16 0xFFFA = some (.telemetry true 2 (Vector.replicate 11 0) 0) := by decide
/-- R63: `01010101 1010101r`. -/
theorem test_tableWord_response : decodeTableWord 16 0x55AB = some (.response true) := by decide
theorem test_tableWord_framing : decodeTableWord 16 0x1234 = some (.framingError 0x12 0x34) := by decide
theorem test_tableWord_byte : decodeTableWord 8 0x9C = some (.ingest 0x9C) := by decide

/-! ### One step of each operation -/

/-- R81's example. -/
theorem test_hdrHi : nextHas (exec (.hdrHi 0xFF) State.reset) fun t =>
    t.hi = 0xFF ∧ t.ck = 0xFF ∧ t.cnt = 1 ∧ t.out = [{ parser := some .pNone }] := by decide
/-- V1: `FF F7`. -/
theorem test_hdrLo : nextHas (exec (.hdrLo 0xF7) (parserAt 1 0xFF 0xFF)) fun t =>
    t.kind = .telemetry ∧ t.escId = 7 ∧ t.tp = false ∧ t.cnt = 2 ∧ t.ck = 0x08 := by decide
/-- R83's example. -/
theorem test_hdrLoTelemetry : nextHas (exec (.hdrLoTelemetry 0xF9) (parserAt 1 0xFF 0xFF)) fun t =>
    t.kind = .telemetry ∧ t.escId = 1 ∧ t.tp = true ∧ t.ck = 0x06 ∧ t.cnt = 2 := by decide
/-- R84's example. -/
theorem test_hdrLoResponse : nextHas (exec (.hdrLoResponse 0xAB) (parserAt 1 0x55 0x55)) fun t =>
    t.out = [{ parser := some (.pResponse true) }] ∧ t.resp = true ∧ t.cnt = 0 ∧ t.ck = 0x55 := by decide
/-- R85's example: the second `FF` is not kept. -/
theorem test_hdrLoFraming : nextHas (exec (.hdrLoFraming 0xFF) (parserAt 1 0x00 0x00)) fun t =>
    t = { State.reset with out := [{ parser := some .pNone }] } := by decide
/-- R86's example. -/
theorem test_dataHi : nextHas (exec (.dataHi 0x07) (parserAt 2 0xFF 0x06)) fun t =>
    t.hi = 0x07 ∧ t.ck = 0x01 ∧ t.cnt = 3 := by decide
/-- R87's example. -/
theorem test_dataLo : nextHas (exec (.dataLo 0xD0) (parserAt 3 0x07 0x01)) fun t =>
    t.ticks[0] = 2000#16 ∧ t.ticks[1] = 0#16 ∧ t.ck = 0xD1 ∧ t.cnt = 4 := by decide
/-- R87 at the last pair: position 23 is `T[10]`. -/
theorem test_dataLo_last : nextHas (exec (.dataLo 0xF4) (parserAt 23 0x01 0x00)) fun t =>
    t.ticks[10] = 500#16 ∧ t.ticks[9] = 0#16 ∧ t.cnt = 24 := by decide
/-- R88: the frame is kept. -/
theorem test_cksumMatch : nextHas (exec (.cksumMatch 0xBE) (frameAt 1 0 false ticksA 0xBE)) fun t =>
    t.cnt = 0 ∧ t.ticks = ticksA ∧ t.ck = 0xBE ∧ t.out = [{ parser := some .pTelemetry }] := by decide
/-- R89's example. -/
theorem test_cksumMismatch : nextHas (exec (.cksumMismatch 0xBF) (frameAt 1 0 false ticksA 0xBE)) fun t =>
    t.ticks = Vector.replicate 11 0 ∧ t.kind = .noFrame ∧ t.out = [{ parser := some .pChecksumError }] := by decide
/-- S1: `VOLTAGE = 12` exactly, every other field unwritten. -/
theorem test_ingest_accepts : nextHas (exec (.ingest 0xBE) (frameAt 1 0 false ticksA 0xBE)) fun t =>
    t.record 0 = { voltage := some (.rat 12) } ∧
    t.out = [{ parser := some .pTelemetry, decoded := some (.ok true), result := some (.telemetry 0 true),
               events := [.dataUpdated 0 { voltage := some (.rat 12) }] }] := by decide +kernel
/-- V20: a zero reference, `TP_REPORTED` untouched. -/
theorem test_ingest_noReference : nextHas (exec (.ingest 0xB5)
      (frameAt 2 1 true #v[0, 3000, 0, 0, 0, 0, 0, 0, 0, 0, 0] 0xB5)) fun t =>
    t.tpReported = false ∧ t.record 1 = {} ∧ t.ticks[1] = 3000#16 ∧
    t.out = [{ parser := some .pTelemetry, decoded := some .noReference, result := some (.error .noReference),
               events := [.error .noReference] }] := by decide
/-- V10: every channel but the temperature, by `DECODE`. -/
theorem test_decode : nextHas (exec (.decode 0) (frameAt 1 0 true ticksV10 0x6F)) fun t =>
    { t.record 0 with temperature := none } =
      { voltage := some (.rat (74 / 5)), rippleVoltage := some (.rat (1 / 25)), current := some (.rat (25 / 2)),
        throttle := some (.rat (3 / 2)), outputPower := some 50, erpm := some 20008, becVoltage := some (.rat 5),
        becCurrent := some (.rat (1 / 2)) } ∧
    (t.record 0).temperature.isSome := by decide +kernel
/-- V11: negative differences are neither clamped nor wrapped. -/
theorem test_chVoltage : nextHas (exec (.chVoltage 0) (frameAt 1 0 false ticksV11 0)) fun t =>
    (t.record 0).voltage = some (.rat (-8)) := by decide +kernel
theorem test_chRippleVoltage : nextHas (exec (.chRippleVoltage 0) (frameAt 1 0 false ticksV10 0)) fun t =>
    (t.record 0).rippleVoltage = some (.rat (1 / 25)) := by decide +kernel
theorem test_chCurrent : nextHas (exec (.chCurrent 0) (frameAt 1 0 false ticksV10 0)) fun t =>
    (t.record 0).current = some (.rat (25 / 2)) := by decide +kernel
theorem test_chThrottle : nextHas (exec (.chThrottle 0) (frameAt 1 0 false ticksV10 0)) fun t =>
    (t.record 0).throttle = some (.rat (3 / 2)) := by decide +kernel
/-- V14: the tie 1/2 rounds to 1 and the tie -1/2 to 0. -/
theorem test_chOutputPower_tie : nextHas (exec (.chOutputPower 0)
      (frameAt 1 0 false #v[1251, 0, 0, 0, 0, 25, 0, 0, 0, 0, 0] 0)) fun t =>
    (t.record 0).outputPower = some 1 := by decide +kernel
theorem test_chOutputPower_negativeTie : nextHas (exec (.chOutputPower 0)
      (frameAt 1 0 false #v[1251, 0, 0, 0, 0, 25, 0, 0, 0, 50, 60] 0)) fun t =>
    (t.record 0).outputPower = some 0 := by decide +kernel
/-- V15: -61/2 rounds to -30. -/
theorem test_chRpm_negativeTie : nextHas (exec (.chRpm 0)
      (frameAt 1 0 false #v[3347, 0, 0, 0, 0, 0, 5, 0, 0, 10, 20] 0)) fun t =>
    (t.record 0).erpm = some (-30) := by decide +kernel
/-- V16: the largest electrical RPM. -/
theorem test_chRpm_largest : nextHas (exec (.chRpm 0)
      (frameAt 1 0 false #v[1, 0, 0, 0, 0, 0, 65535, 0, 0, 65535, 0] 0)) fun t =>
    (t.record 0).erpm = some 1338008435 := by decide +kernel
theorem test_chBecVoltage : nextHas (exec (.chBecVoltage 0) (frameAt 1 0 false ticksV10 0)) fun t =>
    (t.record 0).becVoltage = some (.rat 5) := by decide +kernel
theorem test_chBecCurrent : nextHas (exec (.chBecCurrent 0) (frameAt 1 0 false ticksV10 0)) fun t =>
    (t.record 0).becCurrent = some (.rat (1 / 2)) := by decide +kernel
/-- V32: 3901/1000 saturates. -/
theorem test_chTemperature_saturates : nextHas (exec (.chTemperature 0)
      (frameAt 1 0 false (ticksTemp 1000 3901 0) 0)) fun t =>
    (t.record 0).temperature = some (.rat (-40)) := by decide +kernel
/-- V30 and V31: at `n = 2`, from role 10, the formula's argument `x` is `1.022001962709...`, exactly
`127.625 * 10200 / 127.375 / 10000`. -/
theorem test_chTemperature_formula : nextHas (exec (.chTemperature 0)
      (frameAt 1 0 false (ticksTemp 1000 1000 3000) 0)) fun t =>
    (t.record 0).temperature = some (.sub (.div (.rat 1)
      (.add (.div (.ln (.rat (127625 * 10200 / 127375 / 10000))) (.rat 3455)) (.rat (1 / 298.15)))) (.rat 273.15)) := by decide +kernel
/-- S2 and P1, a whole frame in one model step: 24 results `NONE` and the last one. -/
theorem test_telemetry : nextHas
      (exec (.telemetry false 0 (ticksTemp 1000 4000 0) 0x4B) { State.reset with nEsc := 1 }) fun t =>
    t.record 0 = { temperature := some (.rat (-40)) } ∧ t.cnt = 0 ∧ t.out.length = 25 ∧
    t.out.getLast?.bind Block.Output.result = some (.telemetry 0 true) := by decide +kernel
/-- V5. -/
theorem test_response : nextHas (exec (.response true) State.reset) fun t =>
    t.resp = true ∧ t.ck = 0x55 ∧
    t.out = [Output.quiet, { parser := some (.pResponse true), result := some (.response true),
                             events := [.response true] }] := by decide
/-- V1: `FF 55` is a framing error, silent. -/
theorem test_framingError : nextHas (exec (.framingError 0xFF 0x55) State.reset) fun t =>
    t = { State.reset with out := [Output.quiet, Output.quiet] } := by decide
/-- V35. -/
theorem test_tableReset : nextHas (exec (.tableReset 2) { State.reset with readings := #v[fullRecord, fullRecord] }) fun t =>
    t = { State.reset with nEsc := 2, out := [{ result := some .ok }] } := by decide
/-- S7: `TABLE_RESET 3` is refused. -/
theorem test_tableReset_refused : nextHas (exec (.tableReset 3) State.reset) fun t =>
    t = { State.reset with out := [{ result := some (.error .invalidArgument) }] } := by decide
/-- S6: 3 poles are refused. -/
theorem test_setPoles_refused : nextHas (exec (.setPoles 0 3) { State.reset with nEsc := 1 }) fun t =>
    (t.record 0).poles = 2#8 ∧ t.out = [{ result := some (.error .invalidArgument) }] := by decide
/-- V35: 254 poles are accepted. -/
theorem test_setPoles : nextHas (exec (.setPoles 0 254) { State.reset with nEsc := 2 }) fun t =>
    (t.record 0).poles = 254#8 ∧ (t.record 1).poles = 2#8 ∧ t.out = [{ result := some .ok }] := by decide
/-- R145's codes. -/
theorem test_errorNumbers :
    errorNumber .checksumMismatch = 1 ∧ errorNumber .noReference = 2 ∧ errorNumber .invalidArgument = 3 := by decide
theorem test_reset : nextHas (exec .reset { frameAt 2 1 true ticksV10 0x6F with tpReported := true }) fun t =>
    t = { State.reset with out := [{ result := some .ok }] } := by decide
/-- V36: `15313 / 2 = 7656.5`. -/
theorem test_read_shaftRpm : nextHas
      (exec (.read (.shaftRpm 1)) { State.reset with nEsc := 2, readings := #v[{}, fullRecord] }) fun t =>
    t.out = [{ port := some (.num (.rat (15313 / 2))) }] ∧ t.free = 0 := by decide +kernel
theorem test_read_written : nextHas
      (exec (.read (.written 1 .erpm)) { State.reset with nEsc := 2, readings := #v[{}, fullRecord] }) fun t =>
    t.out = [{ port := some (.bit true) }] := by decide
/-! The number format as an argument (R127, U4): a fixed-point format of 16 steps to the unit. -/

/-- Fixed point, with a logarithm of no importance here and the open values at 0. -/
def fixedPoint : NumParams Rat where
  num := roundedFormat (toFixedPoint 16 1000000) id
  thermAtZero _ := 0
  unwritten _ := 0

/-- R106 and R108 in the format: `1 / 3` is `5/16`, times 20.0 is 6.25, where the exact value is `20/3`. -/
theorem test_fixedPoint_rounds :
    ((Block.runAt fixedPoint (.chVoltage 0)
      { (Block.State.initial : Block.State Rat) with ticks := #v[3, 1, 0, 0, 0, 0, 0, 0, 0, 0, 0] }).record 0).voltage =
      some (25 / 4) := by decide +kernel
/-- D8's "two different frames decoding to equal values": `33/100` is `5/16` too, so nothing changes. -/
theorem test_fixedPoint_hides_change :
    (Block.runAt fixedPoint (.chVoltage 0)
      { (Block.State.initial : Block.State Rat) with
        ticks := #v[100, 33, 0, 0, 0, 0, 0, 0, 0, 0, 0],
        readings := #v[{ voltage := some (25 / 4) }, {}] }).out = [{ decoded := some (.ok false) }] := by decide +kernel
/-- The first step after reset runs the placed word. -/
theorem test_step_places_word : nextHas (step (State.reset.withFetchWord 16 0x55AA)) fun t =>
    t.out.length = 2 ∧ t.kind = .response ∧ t.input = [.bytes (List.replicate 23 0)] := by decide

/-! ### Witnesses: states and operands that meet the hypotheses of each statement

The statements with no hypothesis have none here. -/

theorem witness_FirstHeaderByteHeldUntested : State.reset.cnt = 0 := by decide
theorem witness_TelemetryHeaderSetsTags :
    (parserAt 1 0xFF 0xFF).cnt = 1 ∧ (parserAt 1 0xFF 0xFF).hi = 0xFF#8 ∧
    (0xF0#8).toNat / 16 = 15 ∧ (0xFF#8).toNat / 16 = 15 := by decide
theorem witness_ResponseHeaderCompletesFrame :
    (parserAt 1 0x55 0x55).cnt = 1 ∧ (parserAt 1 0x55 0x55).hi = 0x55#8 ∧
    (0xAA#8).toNat / 2 = 85 ∧ (0xAB#8).toNat / 2 = 85 := by decide
/-- Just outside the telemetry test, and on either side of the response test. -/
theorem witness_FailedPairClearsParser :
    (parserAt 1 0xFF 0xFF).cnt = 1 ∧ (parserAt 1 0x55 0x55).cnt = 1 ∧
    (¬((parserAt 1 0xFF 0xFF).hi = 0xFF#8 ∧ (0xEF#8).toNat / 16 = 15) ∧
      ¬((parserAt 1 0xFF 0xFF).hi = 0x55#8 ∧ (0xEF#8).toNat / 2 = 85)) ∧
    (¬((parserAt 1 0x55 0x55).hi = 0xFF#8 ∧ (0xA9#8).toNat / 16 = 15) ∧
      ¬((parserAt 1 0x55 0x55).hi = 0x55#8 ∧ (0xA9#8).toNat / 2 = 85)) ∧
    (¬((parserAt 1 0x55 0x55).hi = 0xFF#8 ∧ (0xAC#8).toNat / 16 = 15) ∧
      ¬((parserAt 1 0x55 0x55).hi = 0x55#8 ∧ (0xAC#8).toNat / 2 = 85)) := by decide
/-- One input for each of the three outcomes. -/
theorem witness_HeaderPairClassifiedOneOfThree :
    (parserAt 1 0xFF 0xFF).cnt = 1 ∧ 0xF0#8 &&& 0xF0#8 = 0xF0#8 ∧
    (parserAt 1 0x55 0x55).cnt = 1 ∧ 0xAB#8 &&& 0xFE#8 = 0xAA#8 ∧
    (parserAt 1 0x55 0x55).hi ≠ 0xFF#8 ∧ 0xAC#8 &&& 0xFE#8 ≠ 0xAA#8 := by decide
theorem witness_DataHighByteHeld :
    (2 ≤ (parserAt 2 0 0).cnt ∧ (parserAt 2 0 0).cnt ≤ 22 ∧ (parserAt 2 0 0).cnt % 2 = 0) ∧
    (2 ≤ (parserAt 22 0 0).cnt ∧ (parserAt 22 0 0).cnt ≤ 22 ∧ (parserAt 22 0 0).cnt % 2 = 0) := by decide
theorem witness_DataLowByteStoresOneTick :
    (3 ≤ (parserAt 3 0 0).cnt ∧ (parserAt 3 0 0).cnt ≤ 23 ∧ (parserAt 3 0 0).cnt % 2 = 1) ∧
    (3 ≤ (parserAt 23 0 0).cnt ∧ (parserAt 23 0 0).cnt ≤ 23 ∧ (parserAt 23 0 0).cnt % 2 = 1) := by decide
theorem witness_ChecksumMatchWritesOnlyCnt :
    (frameAt 1 0 false ticksA 0xBE).cnt = 24 ∧ 0xBE#8 = (frameAt 1 0 false ticksA 0xBE).ck := by decide
theorem witness_ChecksumMismatchClearsParser :
    (frameAt 1 0 false ticksA 0xBE).cnt = 24 ∧ 0xBF#8 ≠ (frameAt 1 0 false ticksA 0xBE).ck := by decide
theorem witness_ChecksumMismatchSurfaced :
    (frameAt 0 7 true (Vector.replicate 11 0xFFFF) 0x00).cnt = 24 ∧
    0xFF#8 ≠ (frameAt 0 7 true (Vector.replicate 11 0xFFFF) 0x00).ck := by decide
/-- One state for each clause, at the ends of the data region too. -/
theorem witness_ByteCounterTransitionTable :
    ((parserAt 0 0 0).cnt ≤ 24 ∧ (parserAt 0 0 0).cnt = 0) ∧
    ((parserAt 1 0xFF 0xFF).cnt = 1 ∧ (parserAt 1 0xFF 0xFF).hi = 0xFF#8 ∧ 240 ≤ (0xF0#8).toNat) ∧
    ((parserAt 1 0x55 0x55).cnt = 1 ∧ (parserAt 1 0x55 0x55).hi = 0x55#8 ∧ (0xAB#8).toNat = 171) ∧
    ((parserAt 1 0xFF 0xFF).cnt = 1 ∧ ¬((parserAt 1 0xFF 0xFF).hi = 0xFF#8 ∧ 240 ≤ (0xEF#8).toNat)) ∧
    (2 ≤ (parserAt 2 0 0).cnt ∧ 2 ≤ (parserAt 23 0 0).cnt ∧ (parserAt 23 0 0).cnt ≤ 23) ∧
    ((frameAt 1 0 false ticksA 0xBE).cnt = 24 ∧ 0xBE#8 = (frameAt 1 0 false ticksA 0xBE).ck) ∧
    ((frameAt 1 0 false ticksA 0xBE).cnt = 24 ∧ 0xBF#8 ≠ (frameAt 1 0 false ticksA 0xBE).ck) := by decide
theorem witness_UnfinishedFrameTouchesOnlyParser :
    (parserAt 23 0 0).cnt ≤ 23 ∧ ¬((parserAt 23 0 0).cnt = 1 ∧ (parserAt 23 0 0).hi = 0x55#8 ∧ (0xAA#8).toNat / 2 = 85) ∧
    (parserAt 1 0x55 0x55).cnt ≤ 23 := by decide
theorem witness_ResponseRaisesItsEvent :
    nextHas (exec (.ingest 0xAB) (parserAt 1 0x55 0x55)) (fun t =>
      ∃ o ∈ t.out, t.out = [o] ∧ o.parser = some (.pResponse true)) ∧
    (parserAt 1 0x55 0x55).cnt = 1 ∧ (parserAt 1 0x55 0x55).hi = 0x55#8 ∧ (0xAB#8).toNat / 2 = 85 := by decide
/-- No record at all, and the first identifier beyond two records. -/
theorem witness_FrameWithoutRecordDropped :
    ((frameAt 0 0 false ticksA 0xBE).cnt = 24 ∧
      (frameAt 0 0 false ticksA 0xBE).nEsc.val ≤ (frameAt 0 0 false ticksA 0xBE).escId.toNat) ∧
    ((frameAt 2 2 false ticksA 0xBC).cnt = 24 ∧
      (frameAt 2 2 false ticksA 0xBC).nEsc.val ≤ (frameAt 2 2 false ticksA 0xBC).escId.toNat) := by decide
/-- Both branches: a record in use, and none. -/
theorem witness_ZeroReferenceEndsDecode :
    ((frameAt 2 1 true (Vector.replicate 11 0) 0x06).cnt = 24 ∧
      (frameAt 2 1 true (Vector.replicate 11 0) 0x06).ticks[0] = 0#16 ∧
      (frameAt 2 1 true (Vector.replicate 11 0) 0x06).escId.toNat < 2) ∧
    ((frameAt 1 1 true (Vector.replicate 11 0) 0x06).ticks[0] = 0#16 ∧
      ¬(frameAt 1 1 true (Vector.replicate 11 0) 0x06).escId.toNat < 1) := by decide
theorem witness_AcceptedFrameDecodedAndReported :
    (frameAt 2 1 true ticksA 0xB7).cnt = 24 ∧ (frameAt 2 1 true ticksA 0xB7).escId.toNat = (1 : RecIdx).val ∧
    (1 : RecIdx).val < (frameAt 2 1 true ticksA 0xB7).nEsc.val ∧ (frameAt 2 1 true ticksA 0xB7).ticks[0] ≠ 0#16 := by
  decide
/-- The first frame changes something (V24, first row); its repetition does not (S4). -/
theorem witness_DataUpdatedExactlyOnChange :
    nextHas (exec (.ingest 0xBE) (frameAt 1 0 false ticksA 0xBE)) (fun t =>
      ∃ o ∈ t.out, t.out = [o] ∧ o.decoded = some (.ok true)) ∧
    nextHas (exec (.ingest 0xBE) { frameAt 1 0 false ticksA 0xBE with readings := #v[{ voltage := some (.rat 12) }, {}] })
      (fun t => ∃ o ∈ t.out, t.out = [o] ∧ o.decoded = some (.ok false)) := by decide +kernel
/-- A transition (V24, second row), and a frame that ends no decode. -/
theorem witness_ThrottlePresenceOnTransition :
    nextHas (exec (.ingest 0xB6) { frameAt 1 0 true ticksA 0xB6 with readings := #v[{ voltage := some (.rat 12) }, {}] })
      (fun t => ∃ o ∈ t.out, t.out = [o] ∧ o.decoded = some (.ok false) ∧ o.events = [.tpChanged true]) ∧
    nextHas (exec (.ingest 0xB6) (frameAt 0 0 true ticksA 0xB6))
      (fun t => ∃ o ∈ t.out, t.out = [o] ∧ o.decoded = none) := by decide +kernel
/-- Both events in one step, and an error. -/
theorem witness_EventCombinationsOfOneStep :
    nextHas (exec (.ingest 0xB6) (frameAt 1 0 true ticksA 0xB6))
      (fun t => ∃ o ∈ t.out, t.out = [o] ∧ o.events.length = 2) ∧
    nextHas (exec (.ingest 0xB7) (frameAt 1 0 true ticksA 0xB6))
      (fun t => ∃ o ∈ t.out, t.out = [o] ∧ o.events = [.error .checksumMismatch]) := by decide +kernel
theorem witness_ByteStepChangesReadingsOnlyByDecode :
    nextHas (exec (.ingest 0xBE) (frameAt 1 0 false ticksA 0xBE)) fun t =>
      t.readings ≠ (frameAt 1 0 false ticksA 0xBE).readings := by decide +kernel
theorem witness_NoReferenceWritesNothing :
    State.reset.ticks[0] = 0#16 ∧ Instr.decode 1 ∈ decodeRows 1 ∧ Instr.chTemperature 1 ∈ decodeRows 1 := by decide
/-- Role 1 populated and role 2 not. -/
theorem witness_DecodeWritesLinearChannels :
    (frameAt 1 0 false ticksA 0).ticks[0] ≠ 0#16 ∧ (frameAt 1 0 false ticksA 0).ticks[1] ≠ 0#16 ∧
    (frameAt 1 0 false ticksA 0).ticks[2] = 0#16 := by decide
theorem witness_DecodeWritesRoundedChannels :
    (frameAt 1 0 false ticksA 0).ticks[0] ≠ 0#16 ∧
    (frameAt 1 0 false ticksA 0).ticks[5] = 0#16 ∧ (frameAt 1 0 false ticksV10 0).ticks[5] ≠ 0#16 ∧
    (frameAt 1 0 false ticksA 0).ticks[6] = 0#16 ∧ (frameAt 1 0 false ticksV10 0).ticks[6] ≠ 0#16 := by decide
/-- Each clause: no temperature; just above the threshold, and on it; the smallest normalised value of V30; a tie. -/
theorem witness_DecodeWritesTemperature :
    ((frameAt 1 0 false ticksA 0).ticks[9] = 0#16 ∧ (frameAt 1 0 false ticksA 0).ticks[10] = 0#16) ∧
    39 / 10 < (frameAt 1 0 false (ticksTemp 1000 3901 0) 0).tempNorm ∧
    (0 < (frameAt 1 0 false (ticksTemp 1000 3900 0) 0).tempNorm ∧
      (frameAt 1 0 false (ticksTemp 1000 3900 0) 0).tempNorm ≤ 39 / 10) ∧
    (0 < (frameAt 1 0 false (ticksTemp 65535 0 1) 0).tempNorm ∧
      (frameAt 1 0 false (ticksTemp 65535 0 1) 0).tempNorm ≤ 39 / 10) ∧
    ((frameAt 1 0 false (ticksTemp 1000 700 700) 0).ticks[9] = (frameAt 1 0 false (ticksTemp 1000 700 700) 0).ticks[10] ∧
      (frameAt 1 0 false (ticksTemp 1000 700 700) 0).ticks[9] ≠ 0#16) := by decide +kernel
/-- The three values in a finite format: a temperature difference of 1 in 1000 is 0 there, one of 4000 is above 3.9, and
one of 2000 is neither. -/
theorem witness_DecodeWritesTemperature_anyFormat :
    (let n := ({ (Block.State.initial : Block.State Rat) with ticks := ticksTemp 1000 1 0 }).tempNormIn fixedPoint.num
     fixedPoint.num.eq n (fixedPoint.num.ofInt 0) = true) ∧
    (let n := ({ (Block.State.initial : Block.State Rat) with ticks := ticksTemp 1000 4000 0 }).tempNormIn fixedPoint.num
     fixedPoint.num.eq n (fixedPoint.num.ofInt 0) = false ∧ fixedPoint.num.gt n (fixedPoint.num.literal 3.9) = true) ∧
    (let n := ({ (Block.State.initial : Block.State Rat) with ticks := ticksTemp 1000 0 2000 }).tempNormIn fixedPoint.num
     fixedPoint.num.eq n (fixedPoint.num.ofInt 0) = false ∧ fixedPoint.num.gt n (fixedPoint.num.literal 3.9) = false) := by
  decide +kernel
/-- The same states serve the temperature row on its own. -/
theorem witness_TemperatureChannelRow :
    (frameAt 1 0 false (ticksTemp 1000 3901 0) 0).ticks[0] ≠ 0#16 ∧
    (frameAt 1 0 false (ticksTemp 1000 3900 0) 0).ticks[0] ≠ 0#16 ∧
    (frameAt 1 0 false (ticksTemp 1000 700 700) 0).ticks[0] ≠ 0#16 ∧
    39 / 10 < (frameAt 1 0 false (ticksTemp 1000 3901 0) 0).tempNorm ∧
    (frameAt 1 0 false (ticksTemp 1000 3900 0) 0).tempNorm = 39 / 10 := by decide +kernel
theorem witness_LinearChannelRows :
    (frameAt 1 0 false ticksV11 0).ticks[0] ≠ 0#16 ∧ (frameAt 1 0 false ticksV11 0).ticks[1] ≠ 0#16 ∧
    (frameAt 1 0 false ticksV11 0).ticks[2] = 0#16 := by decide
theorem witness_RoundedChannelRows :
    (frameAt 1 0 false ticksV11 0).ticks[0] ≠ 0#16 ∧ (frameAt 1 0 false ticksV11 0).ticks[5] ≠ 0#16 ∧
    (frameAt 1 0 false ticksV11 0).ticks[6] ≠ 0#16 ∧ (frameAt 1 0 false ticksA 0).ticks[5] = 0#16 := by decide
theorem witness_ChangeFlagSaysTableChanged : (frameAt 1 0 false ticksV11 0).ticks[0] ≠ 0#16 := by decide
/-- With two different temperatures, and with none. -/
theorem witness_SecondDecodeChangesNothing :
    ((frameAt 1 0 false ticksV11 0).ticks[0] ≠ 0#16 ∧
      (frameAt 1 0 false ticksV11 0).ticks[9] ≠ (frameAt 1 0 false ticksV11 0).ticks[10]) ∧
    ((frameAt 1 0 false ticksA 0).ticks[0] ≠ 0#16 ∧ (frameAt 1 0 false ticksA 0).ticks[9] = 0#16) := by decide
theorem witness_DecodeReadsTicksAndRecordOnly :
    ({ frameAt 1 1 true ticksA 0 with readings := #v[{ poles := 8 }, fullRecord] } : State).ticks =
      (frameAt 2 0 false ticksA 0).ticks ∧
    ({ frameAt 1 1 true ticksA 0 with readings := #v[{ poles := 8 }, fullRecord] } : State).free =
      (frameAt 2 0 false ticksA 0).free ∧
    ({ frameAt 1 1 true ticksA 0 with readings := #v[{ poles := 8 }, fullRecord] } : State).record 0 =
      { (frameAt 2 0 false ticksA 0).record 0 with poles := 8 } := by decide
/-- At the threshold. -/
theorem witness_ThermistorValuesCompareExactly :
    (0 : ℚ) < 39 / 10 ∧ (39 / 10 : ℚ) ≤ 39 / 10 ∧ ∃ r : ℝ, denotes (therm exactFormat (.rat (39 / 10))) r := by
  refine ⟨by norm_num, le_refl _, ?_⟩
  rw [therm_formula (le_refl _), thermistor, thermArg_exact (le_refl _)]
  simp [denotes_exactSub, denotes_exactDiv, denotes_exactAdd, denotes_exactLn, exactFormat]
theorem witness_TableResetClearsOrRefuses : (0 : ℤ) ≠ 1 ∧ (0 : ℤ) ≠ 2 ∧ (3 : ℤ) ≠ 1 ∧ (3 : ℤ) ≠ 2 ∧ (-1 : ℤ) ≠ 1 := by decide
/-- The accepted ends of the range, and one input for each ground of refusal. -/
theorem witness_SetPolesWritesOrRefuses :
    ((1 : RecIdx).val < (frameAt 2 0 false ticksA 0).nEsc.val ∧ (2#8).toNat % 2 = 0 ∧ 2 ≤ (2#8).toNat ∧
      (254#8).toNat % 2 = 0 ∧ 2 ≤ (254#8).toNat) ∧
    (frameAt 2 0 false ticksA 0).nEsc.val ≤ 2 ∧ State.reset.nEsc.val ≤ 0 ∧ (3#8).toNat % 2 = 1 ∧
    (255#8).toNat % 2 = 1 := by decide
/-- Every field written, and every field unwritten. -/
theorem witness_ReadOfFields :
    fullRecord.voltage = some (.rat 12) ∧ fullRecord.rippleVoltage = some (.rat 1) ∧
    fullRecord.current = some (.rat 2) ∧ fullRecord.throttle = some (.rat 1) ∧ fullRecord.outputPower = some 50 ∧ fullRecord.erpm = some 15313 ∧
    fullRecord.becVoltage = some (.rat 5) ∧ fullRecord.becCurrent = some (.rat 0) ∧
    fullRecord.temperature = some (.rat (-40)) ∧
    writtenBit (State.reset.record 0) .voltage = false ∧ writtenBit (State.reset.record 1) .temperature = false := by
  decide +kernel
theorem witness_ShaftRpmDerivedAtRead :
    (fullRecord.poles.toNat % 2 = 0 ∧ 2 ≤ fullRecord.poles.toNat ∧ fullRecord.erpm = some 15313) ∧
    ((State.reset.record 0).poles.toNat % 2 = 0 ∧ 2 ≤ (State.reset.record 0).poles.toNat ∧
      (State.reset.record 0).erpm = none) := by decide
theorem witness_TelemetryFrameAsAWhole : State.reset.cnt = 0 := by decide
theorem witness_ResponseFrameAsAWhole : State.reset.cnt = 0 := by decide
theorem witness_FailedPairAsAWhole :
    State.reset.cnt = 0 ∧ (Instr.framingError 0xFF 0xEF).wellFormed = true ∧
    (Instr.framingError 0x55 0xAC).wellFormed = true := by decide
theorem witness_FrameRowsRunTheirBytes :
    encode (.response true) = some [0x55, 0xAB] ∧ encode (.framingError 0xFF 0xEF) = some [0xFF, 0xEF] ∧
    (encode (.telemetry false 0 ticksA 0xBE)).isSome := by decide
theorem witness_ArraySameAsItsBytes : ([0xFF] : List Byte) ≠ [] := by decide
/-- A tick's byte, the checksum byte, and the header's low byte replaced. -/
theorem witness_OneCorruptedByteDetected :
    State.reset.cnt = 0 ∧ 0xBE#8 = xorAll (coveredBytes false 0 ticksA) ∧
    telemetryBytes false 0 #v[1000, 601, 0, 0, 0, 0, 0, 0, 0, 0, 0] 0xBE =
      (telemetryBytes false 0 ticksA 0xBE).set 5 0x59 ∧
    telemetryBytes false 0 ticksA 0xBF = (telemetryBytes false 0 ticksA 0xBE).set 24 0xBF ∧
    telemetryBytes true 7 ticksA 0xBE = (telemetryBytes false 0 ticksA 0xBE).set 1 0xFF ∧
    telemetryBytes true 7 ticksA 0xBE ≠ telemetryBytes false 0 ticksA 0xBE := by decide
theorem witness_ResponseInsideFrameIsData :
    2 ≤ (parserAt 2 0 0).cnt ∧ 2 ≤ (parserAt 22 0 0).cnt ∧ (parserAt 22 0 0).cnt ≤ 22 := by decide
/-- V47's frames `D` and `E`. -/
theorem witness_ChecksumBlindToOrder :
    (#v[1000, 600, 0, 750, 0, 0, 0, 0, 0, 0, 0] : Ticks).toList.Perm
      (#v[1000, 750, 0, 600, 0, 0, 0, 0, 0, 0, 0] : Ticks).toList := by decide
theorem witness_FramesDecodeBack :
    (Instr.telemetry true 7 ticksV10 0).wellFormed = true ∧ (Instr.response true).wellFormed = true ∧
    (Instr.framingError 0xFF 0xEF).wellFormed = true := by decide
theorem witness_DecodedFramesEncodeBack : decode [0x55, 0xAB, 0x01] = .ok (.response true, [0x01]) := by rfl
theorem witness_InputItemsDecodeBack :
    (Instr.read .nEsc).wellFormed = true ∧ present (.read .nEsc) = some (.read .nEsc) ∧
    present (.framingError 0xFF 0xEF) = some (.bytes [0xFF, 0xEF]) ∧ present (.tableReset 3) = some (.tableReset 3) := by
  decide
/-- A run of 23 bytes, with the pairs at the ends of each clause's range. -/
theorem witness_EveryHeaderPairClassified :
    23 ≤ (List.replicate 23 0#8).length ∧ (0xFF#8).toNat = 255 ∧ 240 ≤ (0xF0#8).toNat ∧ 240 ≤ (0xFF#8).toNat ∧
    (0x55#8).toNat = 85 ∧ (0xAA#8).toNat = 170 ∧ (0xAB#8).toNat = 171 ∧
    (¬((0xFF#8).toNat = 255 ∧ 240 ≤ (0xEF#8).toNat) ∧ ¬((0xFF#8).toNat = 85 ∧ (0xEF#8).toNat = 170)) := by decide
/-- An item that leaves bytes over, an empty array, no input, and the table's word for a response. -/
theorem witness_StepRunsTheNextInput :
    decodeInput (.bytes [0x55, 0xAA, 0x01]) = some (.response false, [0x01]) ∧
    ({ State.reset with input := [.bytes [], .reset] } : State).input = .bytes [] :: [.reset] ∧
    State.reset.input = [] ∧
    decodeInput (tableInput 16 0x55AA) = some (.response false, List.replicate 23 0) := by decide
/-- A state in the middle of a frame, with one record in use and written. -/
theorem witness_StepKeepsTheInvariants :
    ({ frameAt 2 1 true ticksA 0xB7 with readings := #v[fullRecord, {}] } : State).Inv ∧
    nextHas (step { frameAt 2 1 true ticksA 0xB7 with readings := #v[fullRecord, {}], input := [.byte 0xB7] })
      (fun t => t.cnt = 0) := by
  refine ⟨⟨by decide, by decide, by decide, ?_⟩, by decide +kernel⟩
  intro e he
  exact absurd he (by revert e; decide)
/-- The state after reset, in a finite format. -/
theorem witness_StepKeepsTheInvariants_anyFormat : (Block.State.initial : Block.State Rat).Inv := by
  refine ⟨by decide, by decide, by decide, ?_⟩
  intro e _ f
  revert e
  cases f <;> decide
/-- At the checksum byte of frame `A`. -/
theorem witness_StepKeepsChecksumMeaning :
    (frameAt 1 0 false ticksA 0xBE).CkMeans ∧ (parserAt 1 0xFF 0xFF).CkMeans := by
  exact ⟨⟨by decide, by decide⟩, ⟨by decide, by decide⟩⟩
/-- The largest values of V16. -/
theorem witness_StepKeepsIntegerRanges :
    ({ State.reset with
        readings := Vector.replicate 2 { erpm := some 1338008435, outputPower := some 1639686 } } : State).Ranges := by
  refine ⟨?_, ?_⟩ <;> intro e z h <;> simp [Block.State.record] at h <;> omega
/-- Two states that differ in ticks not yet received and in a stale response bit. -/
theorem witness_HiddenValuesNeverShow :
    (parserAt 2 0xFF 0x0F).Alike { parserAt 2 0x12 0x0F with ticks := ticksA, resp := true } ∧
    parserAt 2 0xFF 0x0F ≠ { parserAt 2 0x12 0x0F with ticks := ticksA, resp := true } := by
  refine ⟨⟨rfl, by decide, by decide, by decide, by decide, ?_, rfl, rfl, rfl, rfl, rfl⟩, by decide⟩
  intro i h
  simp only [parserAt] at h
  omega
theorem witness_HuntingAgainWithinAFrame :
    (parserAt 0 0 0).cnt ≤ 24 ∧ (parserAt 24 0 0).cnt ≤ 24 ∧ (List.replicate 25 0xFF#8).length = 25 := by decide

end Sys2Proof.Tests
end

/-! PROOFS. The per-byte rows of the frame parser: every row answers what `feed` gives (R80), so each statement follows
from the outcome of `feed` at its `CNT`, read in the terms of the wire. -/

namespace Sys2Proof

/-! ### The wire's tests and fields in arithmetic (R62 to R64) -/

/-- The telemetry header test by the high nibble (R62). -/
theorem isTelemetryHeader_iff_nibble (h l : Byte) : isTelemetryHeader h l = true ↔ h = 0xFF#8 ∧ l.toNat / 16 = 15 := by
  rw [isTelemetryHeader_iff]
  exact and_congr_right fun _ => by omega

/-- The response header test by bits 7:1 (R63). -/
theorem isResponseHeader_iff_half (h l : Byte) : isResponseHeader h l = true ↔ h = 0x55#8 ∧ l.toNat / 2 = 85 := by
  rw [isResponseHeader_iff]
  exact and_congr_right fun _ => by omega

/-- A response header is no telemetry header (R67, R82). -/
theorem isTelemetryHeader_eq_false_of_response {h l : Byte} (hr : isResponseHeader h l = true) :
    isTelemetryHeader h l = false :=
  Bool.eq_false_iff.mpr fun ht => header_tests_exclusive h l ⟨ht, hr⟩

theorem escField_eq_mod (l : Byte) : escField l = BitVec.ofNat 3 (l.toNat % 8) := by
  apply BitVec.eq_of_toNat_eq
  simp [escField]

theorem tpField_eq_decide (l : Byte) : tpField l = decide (l.toNat / 8 % 2 = 1) := by
  simp [tpField, BitVec.getLsbD, Nat.testBit_eq_decide_div_mod_eq]

theorem respField_eq_decide (l : Byte) : respField l = decide (l.toNat % 2 = 1) := by
  simp [respField, BitVec.getLsbD, Nat.testBit_eq_decide_div_mod_eq]

namespace Machine

/-! ### Each per-byte row runs what the block selects (R80; log entry 7) -/

/-- What every per-byte row answers: the state that `feed` leaves, delivering its parser result (R95). -/
def Block.feedRow {α : Type} (b : Byte) (s : Block.State α) : Block.State α :=
  (Block.feed b s).1.deliver { parser := some (Block.feed b s).2 }

theorem Block.feedRow_of_feed {α : Type} {b : Byte} {s t : Block.State α} {p : ParserResult}
    (h : Block.feed b s = (t, p)) : Block.feedRow b s = t.deliver { parser := some p } := by
  simp only [Block.feedRow, h]

theorem exec_hdrHi_eq_feedRow (b : Byte) (s : State) : exec (.hdrHi b) s = .next (Block.feedRow b s) :=
  congrArg _ <| Block.parserRow_eq_feed fun h => (Block.feed_at_zero (eq_of_beq h) b).symm

theorem exec_hdrLo_eq_feedRow (b : Byte) (s : State) : exec (.hdrLo b) s = .next (Block.feedRow b s) :=
  congrArg _ <| Block.parserRow_eq_feed fun h => (Block.feed_at_one (eq_of_beq h) b).symm

theorem exec_hdrLoTelemetry_eq_feedRow (b : Byte) (s : State) :
    exec (.hdrLoTelemetry b) s = .next (Block.feedRow b s) := by
  refine congrArg _ <| Block.parserRow_eq_feed fun h => ?_
  obtain ⟨hc, ht⟩ : s.cnt = 1 ∧ isTelemetryHeader s.hi b = true := by simpa using h
  exact (Block.feed_telemetryHeader hc ht).symm

theorem exec_hdrLoResponse_eq_feedRow (b : Byte) (s : State) :
    exec (.hdrLoResponse b) s = .next (Block.feedRow b s) := by
  refine congrArg _ <| Block.parserRow_eq_feed fun h => ?_
  obtain ⟨hc, hr⟩ : s.cnt = 1 ∧ isResponseHeader s.hi b = true := by simpa using h
  exact (Block.feed_responseHeader hc (isTelemetryHeader_eq_false_of_response hr) hr).symm

theorem exec_hdrLoFraming_eq_feedRow (b : Byte) (s : State) :
    exec (.hdrLoFraming b) s = .next (Block.feedRow b s) := by
  refine congrArg _ <| Block.parserRow_eq_feed fun h => ?_
  obtain ⟨⟨hc, ht⟩, hr⟩ : (s.cnt = 1 ∧ isTelemetryHeader s.hi b = false) ∧ isResponseHeader s.hi b = false := by
    simpa using h
  exact (Block.feed_failedPair hc ht hr).symm

theorem exec_dataHi_eq_feedRow (b : Byte) (s : State) : exec (.dataHi b) s = .next (Block.feedRow b s) := by
  refine congrArg _ <| Block.parserRow_eq_feed fun h => ?_
  obtain ⟨hlow, hhigh, heven⟩ := of_decide_eq_true h
  exact (Block.feed_at_even hlow hhigh heven b).symm

theorem exec_cksumMatch_eq_feedRow (b : Byte) (s : State) : exec (.cksumMatch b) s = .next (Block.feedRow b s) := by
  refine congrArg _ <| Block.parserRow_eq_feed fun h => ?_
  obtain ⟨hc, hb⟩ : s.cnt = 24 ∧ b = s.ck := by simpa using h
  exact (Block.feed_match hc.ge hb).symm

/-! ### The statements -/

/-- Settles O1: at `CNT = 0` the selected operation is `HDR_HI`, which tests nothing (R81). -/
theorem firstHeaderByteHeldUntested : Obligations.FirstHeaderByteHeldUntested := by
  intro s b hc
  rw [exec_hdrHi_eq_feedRow, Block.feedRow_of_feed (Block.feed_at_zero hc b)]
  rfl

/-- Settles O2: the pair is a telemetry header, and R83's fields are `b % 8` and bit 3 of `b`. -/
theorem telemetryHeaderSetsTags : Obligations.TelemetryHeaderSetsTags := by
  intro s b hc hhi hb
  have ht : isTelemetryHeader s.hi b = true := (isTelemetryHeader_iff_nibble _ _).mpr ⟨hhi, hb⟩
  rw [exec_hdrLoTelemetry_eq_feedRow, Block.feedRow_of_feed (Block.feed_telemetryHeader hc ht), escField_eq_mod,
    tpField_eq_decide]
  rfl

/-- Settles O3: the pair is a response header and so no telemetry header (R84). -/
theorem responseHeaderCompletesFrame : Obligations.ResponseHeaderCompletesFrame := by
  intro s b hc hhi hb
  have hr : isResponseHeader s.hi b = true := (isResponseHeader_iff_half _ _).mpr ⟨hhi, hb⟩
  have ht : isTelemetryHeader s.hi b = false := isTelemetryHeader_eq_false_of_response hr
  rw [exec_hdrLoResponse_eq_feedRow, Block.feedRow_of_feed (Block.feed_responseHeader hc ht hr), respField_eq_decide]
  rfl

/-- Settles O5: `HDR_LO` and its three outcome rows all answer `feedRow`; what that leaves is read off the outcome that
the header tests select (R82). -/
theorem headerPairClassifiedOneOfThree : Obligations.HeaderPairClassifiedOneOfThree := by
  intro s b hc
  refine ⟨Block.feedRow b s, exec_hdrLo_eq_feedRow b s, ?_⟩
  have ht : isTelemetryHeader s.hi b = true ↔ s.hi = 0xFF#8 ∧ b &&& 0xF0#8 = 0xF0#8 := by simp [isTelemetryHeader]
  have hr : isResponseHeader s.hi b = true ↔ s.hi = 0x55#8 ∧ b &&& 0xFE#8 = 0xAA#8 := by simp [isResponseHeader]
  simp only [← ht, ← hr]
  split
  case isTrue ht =>
    refine ⟨exec_hdrLoTelemetry_eq_feedRow b s, ?_⟩
    rw [Block.feedRow_of_feed (Block.feed_telemetryHeader hc ht)]
    exact ⟨rfl, rfl, rfl⟩
  case isFalse ht =>
    rw [Bool.not_eq_true] at ht
    split
    case isTrue hr =>
      refine ⟨exec_hdrLoResponse_eq_feedRow b s, ?_⟩
      rw [Block.feedRow_of_feed (Block.feed_responseHeader hc ht hr), respField_eq_decide]
      exact ⟨rfl, rfl, rfl⟩
    case isFalse hr =>
      rw [Bool.not_eq_true] at hr
      refine ⟨exec_hdrLoFraming_eq_feedRow b s, ?_⟩
      rw [Block.feedRow_of_feed (Block.feed_failedPair hc ht hr)]
      exact ⟨rfl, rfl, rfl⟩

/-- Settles O6: at an even `CNT` from 2 to 22 the selected operation is `DATA_HI` (R86). -/
theorem dataHighByteHeld : Obligations.DataHighByteHeld := by
  intro s b hlow hhigh heven
  rw [exec_dataHi_eq_feedRow, Block.feedRow_of_feed (Block.feed_at_even hlow hhigh heven b)]
  rfl

/-- Settles O8: at `CNT = 24` a byte equal to `CK` selects `CKSUM.MATCH` (R88). -/
theorem checksumMatchWritesOnlyCnt : Obligations.ChecksumMatchWritesOnlyCnt := by
  intro s b hc hb
  rw [exec_cksumMatch_eq_feedRow, Block.feedRow_of_feed (Block.feed_match hc.ge hb)]
  rfl

end Machine

end Sys2Proof

/-! PROOFS. The ingest stage's `BYTE` step (R100): what it delivers, read off the parser result that `feed` gives and, for
an accepted frame, off the ways in which `acceptFrame` can end. -/

namespace Sys2Proof.Machine

namespace Block

variable {α : Type}

/-- The parser result that a `BYTE` step delivers is the one it acted on (R95, R100). -/
theorem actOn_delivers_parser {P : NumParams α} {p : ParserResult} {s : State α} {o : Output α}
    (ho : (actOn P p s).out = [o]) : o.parser = some p := by
  cases p with
  | pNone => cases ho; rfl
  | pResponse r => cases ho; rfl
  | pChecksumError => cases ho; rfl
  | pTelemetry =>
    rcases acceptFrame_cases P s with ⟨_, q⟩ | ⟨_, _, _, q⟩ | ⟨_, _, _, _, _, _, q⟩ <;>
    · rw [actOn, q] at ho
      cases ho
      rfl

/-- `DATA_UPDATED` among the events of a decode that returned `Ok(changed)` (R122). -/
theorem dataUpdated_mem_decodeEvents {e f : RecIdx} {changed : Bool} {s : State α} {r : Reading α} :
    .dataUpdated f r ∈ decodeEvents e changed s ↔ changed = true ∧ f = e ∧ r = s.record e := by
  simp [decodeEvents]

/-- What a `BYTE` step delivers of a decode (R100, R122): nothing, where none returned `Ok`; else the result of the decode
into the addressed record, with `DATA_UPDATED` of that record exactly if it changed. -/
theorem actOn_decoded_cases {P : NumParams α} {p : ParserResult} {s : State α} {o : Output α}
    (ho : (actOn P p s).out = [o]) :
    ((∀ c, o.decoded ≠ some (.ok c)) ∧ ∀ f r, .dataUpdated f r ∉ o.events) ∨
    (∃ (e : RecIdx) (changed : Bool), e.val = (actOn P p s).escId.toNat ∧ o.decoded = some (.ok changed) ∧
      o.result = some (.telemetry e changed) ∧
      ∀ f r, .dataUpdated f r ∈ o.events ↔ changed = true ∧ f = e ∧ r = (actOn P p s).record e) := by
  cases p with
  | pNone => cases ho; exact .inl ⟨by simp, by simp⟩
  | pResponse r => cases ho; exact .inl ⟨by simp, by simp⟩
  | pChecksumError => cases ho; exact .inl ⟨by simp, by simp [errorEvents]⟩
  | pTelemetry =>
    have hesc : (actOn P .pTelemetry s).escId = s.escId := (actOn_parser P .pTelemetry s).2.2.2.2.1
    rw [hesc]
    rcases acceptFrame_cases P s with ⟨_, q⟩ | ⟨_, _, _, q⟩ | ⟨e, changed, s', hr, _, _, q⟩ <;>
      rw [actOn, q] at ho <;> cases ho
    · exact .inl ⟨by simp, by simp⟩
    · exact .inl ⟨by simp, by simp [errorEvents]⟩
    · have hrec : (actOn P .pTelemetry s).record e = s'.record e := by simp [actOn, q]
      refine .inr ⟨e, changed, (recordOf_some hr).1.symm, rfl, rfl, fun f r => ?_⟩
      rw [hrec]
      exact dataUpdated_mem_decodeEvents

/-- A frame without a reference (R103): the reference error for a record in use, else the silent drop (R101). -/
theorem acceptFrame_noReference (P : NumParams α) {s : State α} (h0 : tickAt s.ticks .reference = 0#16) :
    acceptFrame P s =
      if s.escId.toNat < s.nEsc.val then
        s.raise .noReference { parser := some .pTelemetry, decoded := some .noReference }
      else s.deliver { parser := some .pTelemetry, result := some .nothing } := by
  rcases acceptFrame_cases P s with ⟨hr, q⟩ | ⟨e, hr, _, q⟩ | ⟨_, _, _, _, h, _, _⟩
  · rw [q, if_neg (Nat.not_lt.mpr (recordOf_eq_none.mp hr))]
  · obtain ⟨hesc, hlt⟩ := recordOf_some hr
    rw [q, if_pos (hesc ▸ hlt)]
  · exact absurd h0 h

end Block

/-- `INGEST` acts on what `feed` answers (R100). -/
theorem exec_ingest_of_feed {b : Byte} {s u : State} {p : ParserResult} (h : Block.feed b s = (u, p)) :
    exec (.ingest b) s = .next (Block.actOn configured p u) := by
  rw [exec_eq_runAt, Block.runAt, Block.runIngest, Block.byteStep, h]

/-- The one state that `INGEST` answers (R100). -/
theorem eq_actOn_of_exec_ingest {b : Byte} {s t : State} (h : exec (.ingest b) s = .next t) :
    t = Block.actOn configured (Block.feed b s).2 (Block.feed b s).1 :=
  (Host.Outcome.next.inj h).symm

/-! ### The statements -/

/-- Settles O18: a step that delivers `Ok(changed)` raises `DATA_UPDATED` of the addressed record exactly if `changed`, and
every other step raises none (R122). -/
theorem dataUpdatedExactlyOnChange : Obligations.DataUpdatedExactlyOnChange := by
  intro s t b o ht ho
  obtain rfl := eq_actOn_of_exec_ingest ht
  rcases Block.actOn_decoded_cases ho with ⟨hdec, hev⟩ | ⟨e, changed, hesc, hdec, hres, hev⟩
  · exact ⟨⟨fun ⟨e, r, h⟩ => absurd h (hev e r), fun h => absurd h (hdec true)⟩,
      fun e r h => absurd h (hev e r), fun h => absurd h (hdec false)⟩
  · refine ⟨?_, ?_, ?_⟩
    · simp [hev, hdec]
    · intro f r h
      obtain ⟨-, rfl, rfl⟩ := (hev f r).mp h
      exact ⟨hesc, rfl⟩
    · intro h
      obtain rfl : changed = false := by simpa [hdec] using h
      exact ⟨e, hesc, hres, by simp [hev]⟩

/-- Settles O13: the step acts on the parser result that it delivers, and for `P_RESPONSE(r)` it looks at nothing else
(R124). -/
theorem responseRaisesItsEvent : Obligations.ResponseRaisesItsEvent := by
  refine ⟨?_, ?_⟩
  · intro s t b o r ht ho hp
    obtain rfl := eq_actOn_of_exec_ingest ht
    have hfeed : (Block.feed b s).2 = .pResponse r :=
      Option.some.inj ((Block.actOn_delivers_parser ho).symm.trans hp)
    rw [hfeed] at ho
    cases ho
    exact ⟨rfl, rfl⟩
  · intro s b hc hhi hb
    have hr : isResponseHeader s.hi b = true := (isResponseHeader_iff_half _ _).mpr ⟨hhi, hb⟩
    have ht : isTelemetryHeader s.hi b = false := isTelemetryHeader_eq_false_of_response hr
    rw [exec_ingest_of_feed (Block.feed_responseHeader hc ht hr), respField_eq_decide]
    rfl

/-- Settles O16: the matching checksum accepts the frame, and `acceptFrame` tests the reference after routing (R103). -/
theorem zeroReferenceEndsDecode : Obligations.ZeroReferenceEndsDecode := by
  intro s b hc hb h0
  have hacc := Block.acceptFrame_noReference configured (s := { s with cnt := 0 }) h0
  rw [exec_ingest_of_feed (Block.feed_match hc.ge hb), Block.actOn, hacc]
  rfl

end Sys2Proof.Machine

/-! PROOFS. Encoding and decoding of frames (R61 to R69): the tick bytes are read back pair by pair, and the decoder's three
outcomes by its two header tests are inverse to the encoder. -/

namespace Sys2Proof

/-! ### The tick bytes and back (R61, R65) -/

/-- The eleven ticks at the head of a run of bytes, as the decoder reads them (R61, R65). -/
def ticksFrom (bs : List Byte) : Ticks :=
  Vector.ofFn fun i : Fin 11 => tickOf (bs.getD (2 * i.val) 0#8) (bs.getD (2 * i.val + 1) 0#8)

/-- The decoder on a telemetry header with at least 23 bytes after it (R67, R69). -/
theorem decode_telemetry_header {h l : Byte} {rest : List Byte} (ht : isTelemetryHeader h l = true)
    (hlen : 23 ≤ rest.length) : decode (h :: l :: rest) =
      .ok (.telemetry (tpField l) (escField l) (ticksFrom rest) (rest.getD 22 0#8), rest.drop 23) := by
  simp [decode, ht, hlen, ticksFrom]

theorem decode_telemetry_short {h l : Byte} {rest : List Byte} (ht : isTelemetryHeader h l = true)
    (hlen : ¬23 ≤ rest.length) : decode (h :: l :: rest) = .error .shortTelemetry := by
  simp [decode, ht, hlen]

/-- The decoder on a response header (R67). -/
theorem decode_response_header {h l : Byte} (hr : isResponseHeader h l = true) (rest : List Byte) :
    decode (h :: l :: rest) = .ok (.response (respField l), rest) := by
  simp [decode, isTelemetryHeader_eq_false_of_response hr, hr]

/-- The decoder on any other pair (R67, R68). -/
theorem decode_failedPair {h l : Byte} (ht : isTelemetryHeader h l = false) (hr : isResponseHeader h l = false)
    (rest : List Byte) : decode (h :: l :: rest) = .ok (.framingError h l, rest) := by
  simp [decode, ht, hr]

/-- In a run of pairs, pair `i` is the two bytes of tick `i`. -/
theorem pairs_getD {l : List Tick} {i : Nat} (h : i < l.length) (rest : List Byte) :
    ((l.flatMap fun t => [tickHi t, tickLo t]) ++ rest).getD (2 * i) 0#8 = tickHi l[i] ∧
    ((l.flatMap fun t => [tickHi t, tickLo t]) ++ rest).getD (2 * i + 1) 0#8 = tickLo l[i] := by
  induction l generalizing i with
  | nil => exact absurd h (by simp)
  | cons t l ih =>
    cases i with
    | zero => exact ⟨rfl, rfl⟩
    | succ i => exact ih (by simpa using h)

/-- The ticks of a frame are read back from its tick bytes. -/
theorem ticksFrom_tickBytes (ticks : Ticks) (rest : List Byte) : ticksFrom (tickBytes ticks ++ rest) = ticks := by
  ext i hi
  obtain ⟨hhi, hlo⟩ := pairs_getD (l := ticks.toList) (i := i) (by simpa using hi) rest
  rw [ticksFrom, Vector.getElem_ofFn, tickBytes, hhi, hlo, tickOf_tickHi_tickLo, Vector.getElem_toList]

/-- Pairs of bytes put together as ticks and taken apart again. -/
theorem pairs_ofFn {n : Nat} {bs : List Byte} (h : 2 * n ≤ bs.length) :
    ((List.ofFn fun i : Fin n => tickOf (bs.getD (2 * i.val) 0#8) (bs.getD (2 * i.val + 1) 0#8)).flatMap
      fun t => [tickHi t, tickLo t]) = bs.take (2 * n) := by
  induction n generalizing bs with
  | zero => rfl
  | succ n ih =>
    match bs, h with
    | a :: b :: bs, h =>
      have htail := ih (bs := bs) (by simp only [List.length_cons] at h; omega)
      rw [List.ofFn_succ, List.flatMap_cons, show 2 * (n + 1) = 2 * n + 1 + 1 from rfl, List.take_succ_cons,
        List.take_succ_cons, ← htail]
      simp only [tickHi_tickOf, tickLo_tickOf]
      rfl

/-- The ticks read from a run of bytes have the first 22 of them as their bytes. -/
theorem tickBytes_ticksFrom {bs : List Byte} (h : 22 ≤ bs.length) : tickBytes (ticksFrom bs) = bs.take 22 := by
  rw [tickBytes, ticksFrom, Vector.toList_ofFn, pairs_ofFn (n := 11) h]

/-! ### Frames and back -/

theorem decode_telemetryBytes (tp : Bool) (esc : EscId) (ticks : Ticks) (ck : Byte) (rest : List Byte) :
    decode (telemetryBytes tp esc ticks ck ++ rest) = .ok (.telemetry tp esc ticks ck, rest) := by
  have hbytes : telemetryBytes tp esc ticks ck ++ rest =
      0xFF#8 :: telemetryLow tp esc :: (tickBytes ticks ++ ck :: rest) := by
    simp [telemetryBytes, coveredBytes]
  have hlen := tickBytes_length ticks
  rw [hbytes, decode_telemetry_header (isTelemetryHeader_telemetryLow tp esc) (by simp [hlen]; omega),
    tpField_telemetryLow, escField_telemetryLow, ticksFrom_tickBytes]
  simp [List.drop_append, hlen]

/-- A failed pair meets neither header test (R67, R68). -/
theorem wellFormed_framingError {h l : Byte} : (Instr.framingError h l).wellFormed = true ↔
    isTelemetryHeader h l = false ∧ isResponseHeader h l = false := by
  simp [Instr.wellFormed]

/-- Settles O48: one case for each kind of frame, the telemetry frame by reading its ticks back. -/
theorem framesDecodeBack : Obligations.FramesDecodeBack := by
  intro tp esc ticks ck h l r rest i hi hwf
  simp only [List.mem_cons, List.not_mem_nil, or_false] at hi
  rcases hi with rfl | rfl | rfl
  · exact ⟨_, rfl, decode_telemetryBytes tp esc ticks ck rest⟩
  · refine ⟨_, rfl, ?_⟩
    have hd := decode_response_header (isResponseHeader_responseLow r) rest
    rwa [respField_responseLow] at hd
  · obtain ⟨ht, hr⟩ := wellFormed_framingError.mp hwf
    exact ⟨_, rfl, decode_failedPair ht hr rest⟩

/-- The bytes of a telemetry frame read from a header and what follows it. -/
theorem telemetryBytes_of_header {h l : Byte} {rest : List Byte} (ht : isTelemetryHeader h l = true)
    (hlen : 23 ≤ rest.length) :
    h :: l :: rest =
      telemetryBytes (tpField l) (escField l) (ticksFrom rest) (rest.getD 22 0#8) ++ rest.drop 23 := by
  obtain ⟨rfl, hl⟩ := (isTelemetryHeader_iff h l).mp ht
  have hsplit : rest = rest.take 22 ++ rest.getD 22 0#8 :: rest.drop 23 := by
    rw [List.getD_eq_getElem _ _ (by omega), ← List.drop_eq_getElem_cons, List.take_append_drop]
  simp only [telemetryBytes, coveredBytes, telemetryLow_fields hl, tickBytes_ticksFrom (by omega : 22 ≤ rest.length),
    List.cons_append, List.append_assoc, List.nil_append, ← hsplit]

/-- Settles O49: the three outcomes of the decoder, each with the bytes it took. -/
theorem decodedFramesEncodeBack : Obligations.DecodedFramesEncodeBack := by
  intro bs rest i hd
  match bs with
  | [] => cases hd
  | [_] => cases hd
  | h :: l :: tail =>
    rcases ht : isTelemetryHeader h l with _ | _
    · rcases hr : isResponseHeader h l with _ | _
      · cases (decode_failedPair ht hr tail).symm.trans hd
        exact ⟨wellFormed_framingError.mpr ⟨ht, hr⟩, _, rfl, rfl⟩
      · cases (decode_response_header hr tail).symm.trans hd
        obtain ⟨rfl, hl⟩ := (isResponseHeader_iff h l).mp hr
        refine ⟨rfl, _, rfl, ?_⟩
        rw [responseBytes, responseLow_field hl]
        rfl
    · by_cases hlen : 23 ≤ tail.length
      · cases (decode_telemetry_header ht hlen).symm.trans hd
        exact ⟨rfl, _, rfl, telemetryBytes_of_header ht hlen⟩
      · cases (decode_telemetry_short ht hlen).symm.trans hd

/-! ### Input items, header pairs and sample words -/

theorem decodeArray_of_decode {bs : List Byte} {r : Instr × List Byte} (h : decode bs = .ok r) :
    decodeArray bs = some r := by
  cases bs with
  | nil => cases h
  | cons b bs => simp [decodeArray, h]

/-- Settles O50: a frame's item is the array of its bytes (O48), and every other item names its operation. -/
theorem inputItemsDecodeBack : Obligations.InputItemsDecodeBack := by
  have hframe : ∀ {i : Instr} {bs : List Byte}, decode (bs ++ []) = .ok (i, []) →
      decodeInput (.bytes bs) = some (i, []) := fun h => decodeArray_of_decode (by simpa using h)
  intro i x hwf hx
  cases i <;> cases hx
  case telemetry tp esc ticks ck => exact hframe (decode_telemetryBytes tp esc ticks ck [])
  case response r => cases r <;> rfl
  case framingError h l =>
    obtain ⟨ht, hr⟩ := wellFormed_framingError.mp hwf
    exact hframe (decode_failedPair ht hr [])
  all_goals rfl

/-- Settles O51: the header tests as byte ranges, and the fields of the low byte in arithmetic. -/
theorem everyHeaderPairClassified : Obligations.EveryHeaderPairClassified := by
  intro h l rest hlen
  have htel : isTelemetryHeader h l = true ↔ h.toNat = 255 ∧ 240 ≤ l.toNat := by
    rw [isTelemetryHeader_iff, ← BitVec.toNat_inj]; rfl
  have hres : isResponseHeader h l = true ↔ h.toNat = 85 ∧ (l.toNat = 170 ∨ l.toNat = 171) := by
    rw [isResponseHeader_iff, ← BitVec.toNat_inj]; rfl
  refine ⟨fun hh hl => ⟨ticksFrom rest, rest.getD 22 0#8, ?_⟩, fun hh hl => ?_, fun ht hr => ?_⟩
  · rw [decode_telemetry_header (htel.mpr ⟨hh, hl⟩) hlen, tpField_eq_decide, escField_eq_mod]
  · have hbit : (l.toNat % 2 = 1) ↔ l.toNat = 171 := by omega
    rw [decode_response_header (hres.mpr ⟨hh, hl⟩), respField_eq_decide, decide_eq_decide.mpr hbit]
  · exact decode_failedPair (Bool.eq_false_iff.mpr fun q => ht (htel.mp q)) (Bool.eq_false_iff.mpr fun q => hr (hres.mp q))
      rest

/-- Settles O52: the words are evaluated. -/
theorem sampleWordsDecode : Obligations.SampleWordsDecode := ⟨rfl, rfl, rfl, rfl⟩

/-! ### The checksum and the order of the ticks (R171) -/

/-- The XOR of a run of bytes does not depend on their order. -/
theorem xorAll_perm {as bs : List Byte} (h : as.Perm bs) : xorAll as = xorAll bs := by
  induction h with
  | nil => rfl
  | cons b _ ih => rw [xorAll_cons, xorAll_cons, ih]
  | swap a b l => simp only [xorAll_cons, ← BitVec.xor_assoc, BitVec.xor_comm a b]
  | trans _ _ ih ih' => exact ih.trans ih'

/-- Settles O47: rearranged ticks give rearranged bytes after the same header. -/
theorem checksumBlindToOrder : Obligations.ChecksumBlindToOrder := by
  intro tp esc ticks ticks' h
  exact xorAll_perm (((h.flatMap_right _).cons _).cons _)

end Sys2Proof

/-! PROOFS. What every step keeps: the invariants of R29, the meaning of the running checksum (R66) and what a consumer can
tell apart (R27). A `BYTE` step's parser group is the one that `feed` leaves, so each is a case split over `feed`. -/

namespace Sys2Proof.Machine

namespace Block

variable {α : Type}

/-! ### The parser group of a `BYTE` step is that of `feed` (R100) -/

@[simp] theorem byteStep_cnt (P : NumParams α) (b : Byte) (s : State α) : (byteStep P b s).cnt = (feed b s).1.cnt :=
  (actOn_parser P _ _).1

@[simp] theorem byteStep_hi (P : NumParams α) (b : Byte) (s : State α) : (byteStep P b s).hi = (feed b s).1.hi :=
  (actOn_parser P _ _).2.1

@[simp] theorem byteStep_ck (P : NumParams α) (b : Byte) (s : State α) : (byteStep P b s).ck = (feed b s).1.ck :=
  (actOn_parser P _ _).2.2.1

@[simp] theorem byteStep_kind (P : NumParams α) (b : Byte) (s : State α) :
    (byteStep P b s).kind = (feed b s).1.kind := (actOn_parser P _ _).2.2.2.1

@[simp] theorem byteStep_escId (P : NumParams α) (b : Byte) (s : State α) :
    (byteStep P b s).escId = (feed b s).1.escId := (actOn_parser P _ _).2.2.2.2.1

@[simp] theorem byteStep_tp (P : NumParams α) (b : Byte) (s : State α) : (byteStep P b s).tp = (feed b s).1.tp :=
  (actOn_parser P _ _).2.2.2.2.2.1

@[simp] theorem byteStep_ticks (P : NumParams α) (b : Byte) (s : State α) :
    (byteStep P b s).ticks = (feed b s).1.ticks := (actOn_parser P _ _).2.2.2.2.2.2.2.1

/-! ### The invariants of R29 -/

theorem Reading.unwritten_default : (({} : Reading α)).unwritten := by
  intro f
  cases f <;> rfl

theorem Reading.default_poles_legal :
    ({} : Reading α).poles.toNat % 2 = 0 ∧ 2 ≤ ({} : Reading α).poles.toNat := by
  constructor <;> simp [Config.defaultPoles]

/-- `CNT` stays in its range, and a frame in progress is tagged as a telemetry frame. -/
theorem feed_keeps_frame_tag {b : Byte} {s : State α} (hcnt : s.cnt ≤ 24) (hkind : 2 ≤ s.cnt → s.kind = .telemetry) :
    (feed b s).1.cnt ≤ 24 ∧ (2 ≤ (feed b s).1.cnt → (feed b s).1.kind = .telemetry) := by
  rcases feed_cases b s with ⟨_, f⟩ | ⟨_, _, f⟩ | ⟨_, _, _, f⟩ | ⟨_, _, _, f⟩ | ⟨hlow, hhigh, _, f⟩ |
    ⟨hlow, hhigh, _, f⟩ | ⟨_, _, f⟩ | ⟨_, _, f⟩ <;> rw [f]
  case inl => simp [hdrHi]
  case inr.inl => simp [hdrLoTelemetry]
  case inr.inr.inl => simp [hdrLoResponse]
  case inr.inr.inr.inl => simp [hdrLoFraming]
  case inr.inr.inr.inr.inl => exact ⟨by simp only [dataHi]; omega, fun _ => hkind hlow⟩
  case inr.inr.inr.inr.inr.inl => exact ⟨by simp only [dataLo]; omega, fun _ => hkind (by omega)⟩
  case inr.inr.inr.inr.inr.inr.inl => simp [cksumMatch]
  case inr.inr.inr.inr.inr.inr.inr => simp [cksumMismatch]

theorem byteStep_record_poles (P : NumParams α) (b : Byte) (s : State α) (e : RecIdx) :
    ((byteStep P b s).record e).poles = (s.record e).poles := by
  rcases byteStep_record P b s e with h | ⟨-, -, h⟩
  · rw [h]
  · rw [h, allChannels_poles]

theorem byteStep_keeps_inv (P : NumParams α) (b : Byte) (s : State α) (h : s.Inv) : (byteStep P b s).Inv := by
  obtain ⟨hcnt, hkind, hpoles, hunused⟩ := h
  obtain ⟨hcnt', hkind'⟩ := feed_keeps_frame_tag (b := b) hcnt hkind
  refine ⟨by simpa using hcnt', by simpa using hkind', fun e => ?_, fun e he => ?_⟩
  · rw [byteStep_record_poles]
    exact hpoles e
  · rw [byteStep_nEsc] at he
    rcases byteStep_record P b s e with hr | ⟨hlt, -, -⟩
    · rw [hr]; exact hunused e he
    · omega

theorem resetTable_keeps_inv (s : State α) (c : EscCount) (h : s.Inv) : (s.resetTable c).Inv := by
  refine ⟨h.cntBound, h.inFrame, fun e => ?_, fun e _ => ?_⟩
  · rw [State.resetTable_record]; exact Reading.default_poles_legal
  · rw [State.resetTable_record]; exact Reading.unwritten_default

theorem setPoles_keeps_inv (s : State α) (e : RecIdx) (p : Byte) (h : s.Inv) (heven : p.toNat % 2 = 0)
    (htwo : 2 ≤ p.toNat) : (s.setRecord e { s.record e with poles := p }).Inv := by
  have hrec : ∀ f, (s.setRecord e { s.record e with poles := p }).record f =
      if f = e then { s.record e with poles := p } else s.record f := by
    intro f
    split
    case isTrue hf => rw [hf, State.setRecord_record_same]
    case isFalse hf => exact State.setRecord_record_other hf _ _
  refine ⟨h.cntBound, h.inFrame, fun f => ?_, fun f hf => ?_⟩
  · rw [hrec]
    split
    · exact ⟨heven, htwo⟩
    · exact h.polesLegal f
  · rw [hrec]
    split
    case isTrue hfe =>
      subst hfe
      intro g
      have hg := h.unusedUnwritten f hf g
      cases g <;> exact hg
    case isFalse => exact h.unusedUnwritten f hf

theorem State.initial_inv : (State.initial : State α).Inv := by
  refine ⟨by simp, by simp, fun e => ?_, fun e _ => ?_⟩
  · rw [State.initial_record]; exact Reading.default_poles_legal
  · rw [State.initial_record]; exact Reading.unwritten_default

theorem stepAt_keeps_inv (P : NumParams α) (s : State α) (h : s.Inv) : (stepAt P s).Inv :=
  stepAt_keeps P (Q := State.Inv)
    (hin := fun _ _ h => ⟨h.cntBound, h.inFrame, h.polesLegal, h.unusedUnwritten⟩)
    (hout := fun _ _ h => ⟨h.cntBound, h.inFrame, h.polesLegal, h.unusedUnwritten⟩)
    (hfree := fun _ _ h => ⟨h.cntBound, h.inFrame, h.polesLegal, h.unusedUnwritten⟩)
    (hbyte := byteStep_keeps_inv P)
    (htable := fun s c h _ => resetTable_keeps_inv s c h)
    (hpoles := fun s e p h _ => setPoles_keeps_inv s e p h)
    (hreset := State.initial_inv) h

end Block

/-- Settles O56: the `BYTE` step and the host operations keep the invariants, in any number format. -/
theorem stepKeepsTheInvariants : Obligations.StepKeepsTheInvariants := by
  refine ⟨fun s t h hs => ?_, fun α P s h => Block.stepAt_keeps_inv P s h⟩
  rw [step_eq_stepAt] at hs
  cases hs
  exact Block.stepAt_keeps_inv configured s h

/-! ### The meaning of the running checksum (R66, R81, R88) -/

/-- In a run of pairs with pair `i` replaced, the pairs up to that one are the old ones and the new pair. -/
theorem pairs_set_take {l : List Tick} {i : Nat} (h : i < l.length) (v : Tick) :
    ((l.set i v).flatMap fun t => [tickHi t, tickLo t]).take (2 * (i + 1)) =
      (l.flatMap fun t => [tickHi t, tickLo t]).take (2 * i) ++ [tickHi v, tickLo v] := by
  induction l generalizing i with
  | nil => exact absurd h (by simp)
  | cons t l ih =>
    cases i with
    | zero => rfl
    | succ i =>
      have htail := ih (i := i) (by simpa using h)
      simp only [List.set_cons_succ, List.flatMap_cons, List.cons_append, List.nil_append,
        show 2 * (i + 1 + 1) = 2 * (i + 1) + 1 + 1 from rfl, show 2 * (i + 1) = 2 * i + 1 + 1 from rfl,
        List.take_succ_cons] at htail ⊢
      rw [htail]

/-- The covered bytes up to a tick that has just been stored (R61, R87). -/
theorem coveredBytes_setTick_take (tp : Bool) (esc : EscId) (ticks : Ticks) {i : Nat} (h : i < 11) (v : Tick) :
    (coveredBytes tp esc (ticks.setIfInBounds i v)).take (2 * (i + 2)) =
      (coveredBytes tp esc ticks).take (2 * (i + 1)) ++ [tickHi v, tickLo v] := by
  have hset : (ticks.setIfInBounds i v).toList = ticks.toList.set i v := by simp
  have hpairs := pairs_set_take (l := ticks.toList) (i := i) (by simpa using h) v
  simp only [coveredBytes, tickBytes, hset, show 2 * (i + 2) = 2 * (i + 1) + 1 + 1 from rfl,
    show 2 * (i + 1) = 2 * i + 1 + 1 from rfl, List.take_succ_cons, List.cons_append] at hpairs ⊢
  rw [hpairs]

namespace Block

variable {α : Type}

/-- With no frame in progress there is nothing to say of `CK`. -/
theorem State.ckMeans_of_cnt_zero {s : State α} (h : s.cnt = 0) : s.CkMeans := by
  constructor <;> intro h' <;> omega

/-- What `CK` means looks at the parser group only. -/
theorem State.CkMeans.congr {s t : State α} (h : s.CkMeans) (hcnt : t.cnt = s.cnt) (hhi : t.hi = s.hi)
    (hck : t.ck = s.ck) (hesc : t.escId = s.escId) (htp : t.tp = s.tp) (hticks : t.ticks = s.ticks) : t.CkMeans := by
  obtain ⟨hseed, hacc⟩ := h
  constructor
  · rw [hcnt, hck, hhi]; exact hseed
  · rw [hcnt, hck, State.consumed, hcnt, hhi, hesc, htp, hticks]; exact hacc

/-- Just after a telemetry header (R83). -/
theorem hdrLoTelemetry_ckMeans {b : Byte} {s : State α} (h : s.CkMeans) (hcnt : s.cnt = 1)
    (ht : isTelemetryHeader s.hi b = true) : (hdrLoTelemetry b s).1.CkMeans := by
  obtain ⟨hhi, hb⟩ := (isTelemetryHeader_iff _ _).mp ht
  refine ⟨by simp [hdrLoTelemetry], fun _ _ => ?_⟩
  simp [hdrLoTelemetry, State.consumed, coveredBytes, telemetryLow_fields hb, xorAll_cons, ckNext, h.seeded hcnt, hhi]

/-- The high byte of a tick is the held byte (R86). -/
theorem dataHi_ckMeans {b : Byte} {s : State α} (h : s.CkMeans) (hlow : 2 ≤ s.cnt) (hhigh : s.cnt ≤ 22)
    (heven : s.cnt % 2 = 0) : (dataHi b s).1.CkMeans := by
  have hconsumed : (dataHi b s).1.consumed = s.consumed ++ [b] := by
    simp [dataHi, State.consumed, heven, show (s.cnt + 1) % 2 = 1 by omega, show (s.cnt + 1) / 2 = s.cnt / 2 by omega]
  refine ⟨fun h1 => ?_, fun _ _ => ?_⟩
  · simp only [dataHi] at h1; omega
  · rw [hconsumed, xorAll_append, xorAll_singleton, ← h.accumulated hlow (by omega)]; rfl

/-- The low byte of a tick stores the pair (R87). -/
theorem dataLo_ckMeans {b : Byte} {s : State α} (h : s.CkMeans) (hlow : 3 ≤ s.cnt) (hhigh : s.cnt ≤ 23)
    (hodd : s.cnt % 2 = 1) : (dataLo b s).1.CkMeans := by
  obtain ⟨i, hi⟩ : ∃ i, s.cnt = 2 * i + 3 := ⟨(s.cnt - 3) / 2, by omega⟩
  have hconsumed : (dataLo b s).1.consumed = s.consumed ++ [b] := by
    simp only [dataLo, State.consumed, State.setTick, hi, show (2 * i + 3 - 3) / 2 = i by omega,
      show 2 * ((2 * i + 3 + 1) / 2) = 2 * (i + 2) by omega, show 2 * ((2 * i + 3) / 2) = 2 * (i + 1) by omega,
      coveredBytes_setTick_take _ _ _ (show i < 11 by omega), tickHi_tickOf, tickLo_tickOf,
      show (2 * i + 3 + 1) % 2 = 0 by omega, show (2 * i + 3) % 2 = 1 by omega]
    simp
  refine ⟨fun h1 => ?_, fun _ _ => ?_⟩
  · simp only [dataLo] at h1; omega
  · rw [hconsumed, xorAll_append, xorAll_singleton, ← h.accumulated (by omega) (by omega)]; rfl

theorem feed_keeps_ckMeans (b : Byte) (s : State α) (h : s.CkMeans) : (feed b s).1.CkMeans := by
  rcases feed_cases b s with ⟨_, f⟩ | ⟨h1, ht, f⟩ | ⟨_, _, _, f⟩ | ⟨_, _, _, f⟩ | ⟨hlow, hhigh, heven, f⟩ |
    ⟨hlow, hhigh, hodd, f⟩ | ⟨_, _, f⟩ | ⟨_, _, f⟩ <;> rw [f]
  case inl => exact ⟨fun _ => rfl, fun h2 => by simp [hdrHi] at h2⟩
  case inr.inl => exact hdrLoTelemetry_ckMeans h h1 ht
  case inr.inr.inr.inr.inl => exact dataHi_ckMeans h hlow hhigh heven
  case inr.inr.inr.inr.inr.inl => exact dataLo_ckMeans h hlow hhigh hodd
  all_goals exact State.ckMeans_of_cnt_zero rfl

theorem byteStep_keeps_ckMeans (P : NumParams α) (b : Byte) (s : State α) (h : s.CkMeans) : (byteStep P b s).CkMeans :=
  (feed_keeps_ckMeans b s h).congr (byteStep_cnt P b s) (byteStep_hi P b s) (byteStep_ck P b s) (byteStep_escId P b s)
    (byteStep_tp P b s) (byteStep_ticks P b s)

end Block

/-- Settles O57: only the `BYTE` step and `RESET` write the parser group. -/
theorem stepKeepsChecksumMeaning : Obligations.StepKeepsChecksumMeaning := by
  intro s t h hs
  exact step_keeps (Q := Block.State.CkMeans)
    (hin := fun _ _ h => h.congr rfl rfl rfl rfl rfl rfl)
    (hout := fun _ _ h => h.congr rfl rfl rfl rfl rfl rfl)
    (hfree := fun _ _ h => h.congr rfl rfl rfl rfl rfl rfl)
    (hbyte := Block.byteStep_keeps_ckMeans configured)
    (htable := fun _ _ h _ => h.congr rfl rfl rfl rfl rfl rfl)
    (hpoles := fun _ _ _ h _ _ _ => h.congr rfl rfl rfl rfl rfl rfl)
    (hreset := Block.State.ckMeans_of_cnt_zero rfl) h hs

end Sys2Proof.Machine

/-! PROOFS. Hidden parser values never show (R27, D4): `Alike` states run the same operation on every input item, deliver the
same and stay alike. -/

namespace Sys2Proof.Machine

namespace Block

variable {α : Type}

/-! ### How an accepted frame ends, one equation per case (R100 to R103) -/

/-- The decode of the ticks into record `e` (R102). -/
def decodeRunOf (P : NumParams α) (e : RecIdx) (s : State α) : DecodeRun α :=
  allChannels P s.ticks { reading := s.record e, changed := false, free := s.free }

/-- The state after a decode into record `e`: its record and the count of free values are written back (R102). -/
def State.wroteBack (e : RecIdx) (d : DecodeRun α) (s : State α) : State α := (s.setRecord e d.reading).withFree d.free

theorem decodeFrame_eq {s : State α} (h : s.ticks[0] ≠ 0#16) (P : NumParams α) (e : RecIdx) :
    decodeFrame P e s = (s.wroteBack e (decodeRunOf P e s), .ok (decodeRunOf P e s).changed) :=
  decodeWith_ok h (allChannels P) e

theorem acceptFrame_dropped (P : NumParams α) {s : State α} (hr : recordOf s.escId s.nEsc = none) :
    acceptFrame P s = s.deliver { parser := some .pTelemetry, result := some .nothing } := by
  simp only [acceptFrame, hr]

theorem acceptFrame_zeroReference (P : NumParams α) {s : State α} {e : RecIdx}
    (hr : recordOf s.escId s.nEsc = some e) (h0 : s.ticks[0] = 0#16) :
    acceptFrame P s = s.raise .noReference { parser := some .pTelemetry, decoded := some .noReference } := by
  simp only [acceptFrame, hr, decodeFrame, decodeWith_noReference (s := s) h0]

theorem acceptFrame_decoded (P : NumParams α) {s : State α} {e : RecIdx} (hr : recordOf s.escId s.nEsc = some e)
    (h0 : s.ticks[0] ≠ 0#16) :
    acceptFrame P s = (s.wroteBack e (decodeRunOf P e s)).reportTp.deliver
      { parser := some .pTelemetry, decoded := some (.ok (decodeRunOf P e s).changed),
        result := some (.telemetry e (decodeRunOf P e s).changed),
        events := decodeEvents e (decodeRunOf P e s).changed (s.wroteBack e (decodeRunOf P e s)) } := by
  simp only [acceptFrame, hr, decodeFrame_eq h0]

/-! ### The parser on alike states -/

namespace State.Alike

variable {s t : State α}

theorem record (h : s.Alike t) (e : RecIdx) : s.record e = t.record e := by
  rw [State.record, State.record, h.readings]

theorem withInput (h : s.Alike t) (l : List Input) : (s.withInput l).Alike (t.withInput l) :=
  { h with input := rfl }

theorem withFree (h : s.Alike t) (k : Nat) : (s.withFree k).Alike (t.withFree k) :=
  { h with free := rfl }

/-- What was delivered last is not compared. -/
theorem withOut (h : s.Alike t) (o o' : List (Output α)) : (s.withOut o).Alike (t.withOut o') :=
  { h with }

theorem setRecord (h : s.Alike t) (e : RecIdx) (r : Reading α) : (s.setRecord e r).Alike (t.setRecord e r) :=
  { h with readings := by simp only [State.setRecord, h.readings] }

theorem resetTable (h : s.Alike t) (c : EscCount) : (s.resetTable c).Alike (t.resetTable c) :=
  { h with nEsc := rfl, readings := rfl }

/-- At the end of a frame every tick counts. -/
theorem ticks_eq (h : s.Alike t) (hcnt : 24 ≤ s.cnt) : s.ticks = t.ticks := by
  refine Vector.ext fun i hi => h.ticks ⟨i, hi⟩ ?_
  simp only
  omega

end State.Alike

/-- With the parser expecting a header, nothing of the parser group counts. -/
theorem State.alike_of_cnt_zero {s t : State α} (hs : s.cnt = 0) (ht : t.cnt = 0) (hnEsc : s.nEsc = t.nEsc)
    (hreadings : s.readings = t.readings) (htpReported : s.tpReported = t.tpReported) (hinput : s.input = t.input)
    (hfree : s.free = t.free) : s.Alike t where
  cnt := hs.trans ht.symm
  hi h := by omega
  ck h := by omega
  escId h := by omega
  tp h := by omega
  ticks i h := by omega
  nEsc := hnEsc
  readings := hreadings
  tpReported := htpReported
  input := hinput
  free := hfree

/-- `DATA_LO` stores one tick and no other (R87). -/
theorem dataLo_ticks_getElem (b : Byte) (s : State α) (j : Fin 11) :
    (dataLo b s).1.ticks[j] = if (s.cnt - 3) / 2 = j.val then tickOf s.hi b else s.ticks[j] :=
  Vector.getElem_setIfInBounds j.isLt

/-- A stored tick makes the ticks stored so far agree on one tick more (R87). -/
theorem dataLo_alike {b : Byte} {s t : State α} (h : s.Alike t) (hlow : 3 ≤ s.cnt) (hodd : s.cnt % 2 = 1) :
    (dataLo b s).1.Alike (dataLo b t).1 :=
  { h with
    cnt := congrArg (· + 1) h.cnt
    hi := fun _ => h.hi hodd
    ck := fun _ => congrArg (ckNext · b) (h.ck (by omega))
    escId := fun _ => h.escId (by omega)
    tp := fun _ => h.tp (by omega)
    ticks := by
      intro i hi
      have hi' : 3 + 2 * i.val < s.cnt + 1 := hi
      rw [dataLo_ticks_getElem, dataLo_ticks_getElem, ← h.cnt, ← h.hi hodd]
      split
      case isTrue => rfl
      case isFalse hne => exact h.ticks i (by omega) }

/-- Alike states run the same parser operation and stay alike (R80). -/
theorem feed_alike {b : Byte} {s t : State α} (h : s.Alike t) :
    (feed b s).1.Alike (feed b t).1 ∧ (feed b s).2 = (feed b t).2 := by
  have hcnt := h.cnt
  rcases outcome_cases b s with h0 | ⟨h1, hrest⟩ | ⟨h1, hrest⟩ | ⟨h1, hrest⟩ | ⟨hlow, hhigh, heven⟩ |
    ⟨hlow, hhigh, hodd⟩ | ⟨hend, hb⟩ | ⟨hend, hb⟩
  case inl =>
    rw [feed_at_zero h0, feed_at_zero (hcnt ▸ h0)]
    exact ⟨{ h with
      cnt := rfl, hi := fun _ => rfl, ck := fun _ => rfl, escId := fun h2 => by simp [hdrHi] at h2
      tp := fun h2 => by simp [hdrHi] at h2, ticks := fun i h2 => by simp [hdrHi] at h2 }, rfl⟩
  case inr.inl =>
    have hhi := h.hi (by omega)
    rw [feed_telemetryHeader h1 hrest, feed_telemetryHeader (hcnt ▸ h1) (hhi ▸ hrest)]
    exact ⟨{ h with
      cnt := rfl, hi := fun _ => hhi, ck := fun _ => congrArg (ckNext · b) (h.ck (by omega)), escId := fun _ => rfl
      tp := fun _ => rfl, ticks := fun i h2 => by simp only [hdrLoTelemetry] at h2; omega }, rfl⟩
  case inr.inr.inl =>
    have hhi := h.hi (by omega)
    obtain ⟨ht, hr⟩ := hrest
    rw [feed_responseHeader h1 ht hr, feed_responseHeader (hcnt ▸ h1) (hhi ▸ ht) (hhi ▸ hr)]
    exact ⟨State.alike_of_cnt_zero rfl rfl h.nEsc h.readings h.tpReported h.input h.free, rfl⟩
  case inr.inr.inr.inl =>
    have hhi := h.hi (by omega)
    obtain ⟨ht, hr⟩ := hrest
    rw [feed_failedPair h1 ht hr, feed_failedPair (hcnt ▸ h1) (hhi ▸ ht) (hhi ▸ hr)]
    exact ⟨State.alike_of_cnt_zero rfl rfl h.nEsc h.readings h.tpReported h.input h.free, rfl⟩
  case inr.inr.inr.inr.inl =>
    rw [feed_at_even hlow hhigh heven, feed_at_even (hcnt ▸ hlow) (hcnt ▸ hhigh) (hcnt ▸ heven)]
    exact ⟨{ h with
      cnt := congrArg (· + 1) hcnt, hi := fun _ => rfl, ck := fun _ => congrArg (ckNext · b) (h.ck (by omega))
      escId := fun _ => h.escId hlow, tp := fun _ => h.tp hlow
      ticks := fun i h2 => h.ticks i (by simp only [dataHi] at h2; omega) }, rfl⟩
  case inr.inr.inr.inr.inr.inl =>
    rw [feed_at_odd hlow hhigh hodd, feed_at_odd (hcnt ▸ hlow) (hcnt ▸ hhigh) (hcnt ▸ hodd)]
    exact ⟨dataLo_alike h hlow hodd, rfl⟩
  case inr.inr.inr.inr.inr.inr.inl =>
    rw [feed_match hend hb, feed_match (hcnt ▸ hend) (h.ck (by omega) ▸ hb)]
    exact ⟨State.alike_of_cnt_zero rfl rfl h.nEsc h.readings h.tpReported h.input h.free, rfl⟩
  case inr.inr.inr.inr.inr.inr.inr =>
    rw [feed_mismatch hend hb, feed_mismatch (hcnt ▸ hend) (h.ck (by omega) ▸ hb)]
    exact ⟨State.alike_of_cnt_zero rfl rfl h.nEsc h.readings h.tpReported h.input h.free, rfl⟩

/-! ### Steps of alike states -/

theorem decodeEvents_congr {e : RecIdx} {s t : State α} (changed : Bool) (hrecord : s.record e = t.record e)
    (htp : s.tp = t.tp) (htpReported : s.tpReported = t.tpReported) :
    decodeEvents e changed s = decodeEvents e changed t := by
  unfold decodeEvents
  rw [hrecord, htp, htpReported]

/-- An accepted frame on states that agree on its fields too (R100). -/
theorem acceptFrame_alike (P : NumParams α) {s t : State α} (h : s.Alike t) (hesc : s.escId = t.escId)
    (htp : s.tp = t.tp) (hticks : s.ticks = t.ticks) :
    (acceptFrame P s).Alike (acceptFrame P t) ∧ (acceptFrame P s).out = (acceptFrame P t).out := by
  have hroute : recordOf t.escId t.nEsc = recordOf s.escId s.nEsc := by rw [hesc, h.nEsc]
  rcases hr : recordOf s.escId s.nEsc with _ | e
  · rw [acceptFrame_dropped P hr, acceptFrame_dropped P (hroute.trans hr)]
    exact ⟨h.withOut _ _, rfl⟩
  by_cases h0 : s.ticks[0] = 0#16
  · rw [acceptFrame_zeroReference P hr h0, acceptFrame_zeroReference P (hroute.trans hr) (hticks ▸ h0)]
    exact ⟨h.withOut _ _, rfl⟩
  · have hrun : decodeRunOf P e t = decodeRunOf P e s := by
      rw [decodeRunOf, decodeRunOf, ← hticks, ← h.record, ← h.free]
    rw [acceptFrame_decoded P hr h0, acceptFrame_decoded P (hroute.trans hr) (hticks ▸ h0), hrun]
    have hback : (s.wroteBack e (decodeRunOf P e s)).Alike (t.wroteBack e (decodeRunOf P e s)) :=
      (h.setRecord e _).withFree _
    generalize decodeRunOf P e s = d at hback ⊢
    refine ⟨?_, ?_⟩
    · simp only [State.reportTp_eq]
      exact { hback with tpReported := htp }
    · rw [State.deliver_out, State.deliver_out,
        decodeEvents_congr d.changed (hback.record e) htp hback.tpReported]

theorem byteStep_alike (P : NumParams α) (b : Byte) {s t : State α} (h : s.Alike t) :
    (byteStep P b s).Alike (byteStep P b t) ∧ (byteStep P b s).out = (byteStep P b t).out := by
  obtain ⟨hfeed, hresult⟩ := feed_alike (b := b) h
  rw [byteStep, byteStep, ← hresult]
  cases hp : (feed b s).2 with
  | pNone => exact ⟨hfeed.withOut _ _, rfl⟩
  | pResponse r => exact ⟨hfeed.withOut _ _, rfl⟩
  | pChecksumError => exact ⟨hfeed.withOut _ _, rfl⟩
  | pTelemetry =>
    obtain ⟨hend, -, hs⟩ := feed_accepts hp
    obtain ⟨-, -, ht⟩ := feed_accepts (hresult.symm.trans hp)
    rw [hs, ht] at hfeed ⊢
    exact acceptFrame_alike P hfeed (h.escId (by omega)) (h.tp (by omega)) (h.ticks_eq hend)

theorem byteSteps_alike (P : NumParams α) (bs : List Byte) {s t : State α} (h : s.Alike t) :
    (byteSteps P bs s).Alike (byteSteps P bs t) ∧ (byteSteps P bs s).out = (byteSteps P bs t).out := by
  induction bs generalizing s t with
  | nil => exact ⟨h.withOut _ _, rfl⟩
  | cons b bs ih =>
    obtain ⟨hbyte, hout⟩ := byteStep_alike P b h
    obtain ⟨hrest, houts⟩ := ih hbyte
    exact ⟨hrest.withOut _ _, congrArg₂ (· ++ ·) hout houts⟩

theorem runSetPoles_alike (e : Nat) (p : Byte) {s t : State α} (h : s.Alike t) :
    (runSetPoles e p s).Alike (runSetPoles e p t) ∧ (runSetPoles e p s).out = (runSetPoles e p t).out := by
  simp only [runSetPoles, ← h.nEsc, ← h.record]
  split
  · exact ⟨(h.setRecord _ _).withOut _ _, rfl⟩
  · exact ⟨h.withOut _ _, rfl⟩

theorem runTableReset_alike (n : Int) {s t : State α} (h : s.Alike t) :
    (runTableReset n s).Alike (runTableReset n t) ∧ (runTableReset n s).out = (runTableReset n t).out := by
  simp only [runTableReset]
  split
  · exact ⟨(h.resetTable _).withOut _ _, rfl⟩
  · exact ⟨h.withOut _ _, rfl⟩

/-- A port shows nothing of the parser group (R133). -/
theorem portValue_alike (P : NumParams α) (p : Port) {s t : State α} (h : s.Alike t) :
    portValue P s p = portValue P t p := by
  cases p <;> simp only [portValue, h.nEsc, h.tpReported, h.record, h.free]

/-- A step from alike states. -/
theorem stepAt_alike (P : NumParams α) {s t : State α} (h : s.Alike t) :
    (stepAt P s).Alike (stepAt P t) ∧ (stepAt P s).out = (stepAt P t).out := by
  unfold stepAt
  rw [← h.input]
  split
  · exact ⟨(h.withInput _).withOut _ _, rfl⟩
  · rename_i i rest hnext
    obtain ⟨x, bs, -, hd⟩ := nextInput_cases hnext
    have hin := h.withInput rest
    rcases decodeInput_cases hd with ⟨tp, esc, ticks, ck, rfl⟩ | ⟨r, rfl⟩ | ⟨a, l, rfl⟩ | ⟨b, rfl⟩ | ⟨n, rfl⟩ |
      ⟨e, p, rfl⟩ | rfl | ⟨p, rfl⟩
    · exact byteSteps_alike P _ hin
    · exact byteSteps_alike P _ hin
    · exact byteSteps_alike P _ hin
    · exact byteStep_alike P b hin
    · exact runTableReset_alike n hin
    · exact runSetPoles_alike e p hin
    · exact ⟨State.alike_of_cnt_zero rfl rfl rfl rfl rfl rfl hin.free, rfl⟩
    · simp only [runAt, runRead, portValue_alike P p hin, hin.free]
      exact ⟨(hin.withFree _).withOut _ _, rfl⟩

end Block

/-- Settles O59: one step of the block keeps `Alike` and delivers the same. -/
theorem hiddenValuesNeverShow : Obligations.HiddenValuesNeverShow := by
  intro s s' t h hs
  rw [step_eq_stepAt] at hs
  cases hs
  obtain ⟨halike, hout⟩ := Block.stepAt_alike configured h
  exact ⟨_, step_eq_stepAt s', halike, hout⟩

end Sys2Proof.Machine

/-! PROOFS. The whole machine: what a step runs, the ranges of the integer fields (R21), and runs over bytes given one at a
time (R41, R97). -/

namespace Sys2Proof.Machine

/-! ### One step -/

theorem pushBytes_eq_ite (bs : List Byte) (rest : List Input) :
    pushBytes bs rest = if bs = [] then rest else .bytes bs :: rest := by
  cases bs <;> rfl

theorem nextInput_cons_of_decodeInput {x : Input} {i : Instr} {bs : List Byte} (h : decodeInput x = some (i, bs))
    (rest : List Input) : nextInput (x :: rest) = some (i, if bs = [] then rest else .bytes bs :: rest) := by
  simp only [nextInput, h, pushBytes_eq_ite]

/-- A step whose next item asks for an operation runs it. -/
theorem step_of_decodeInput {s : State} {x : Input} {rest : List Input} {i : Instr} {bs : List Byte}
    (hs : s.input = x :: rest) (h : decodeInput x = some (i, bs)) :
    step s = exec i (s.withInput (if bs = [] then rest else .bytes bs :: rest)) := by
  simp only [step, hs, nextInput_cons_of_decodeInput h]

/-- Settles O53: the next item's operation runs, an empty array is passed over, and without input the block waits. -/
theorem stepRunsTheNextInput : Obligations.StepRunsTheNextInput := by
  refine ⟨fun s x rest i bs hs h => step_of_decodeInput hs h, fun s rest hs => ?_, fun s hs => ?_, step_eq_stepAt,
    fun s nbits w i bs h => ⟨?_, ?_⟩⟩
  · simp only [step, hs, nextInput, decodeInput, decodeArray]
    rfl
  · simp only [step, hs, nextInput, waitStep, Block.runWait]
    rfl
  · rw [decodeTableWord, h]
    rfl
  · exact step_of_decodeInput (s := s.withFetchWord nbits w) rfl h

/-- Settles O54: `exec` and `step` are total functions of the state in any number format. -/
theorem nothingStopsTheBlock : Obligations.NothingStopsTheBlock :=
  ⟨fun i s => ⟨_, exec_eq_runAt i s⟩, fun s => ⟨_, step_eq_stepAt s⟩⟩

/-! ### The ranges of the integer fields (R21) -/

/-- `ROUND` of the exact format is `floor(x + 1/2)` (R5, D9). -/
theorem roundHalfUp_eq_floor (x : ℚ) : roundHalfUp x = ⌊x + 1 / 2⌋ := rfl

/-- A populated tick's normalised value is at most that of the largest tick over the smallest offset and reference, and at
least that of the smallest tick over the largest offset and the smallest reference (R106). -/
theorem normOf_exact_bounds {t : Ticks} (h0 : tickAt t .reference ≠ 0#16) {r : Role} (hr : tickAt t r ≠ 0#16) :
    ∃ n : ℚ, normOf exactFormat t r = .rat n ∧ -65534 ≤ n ∧ n ≤ 65535 := by
  have pos : ∀ {v : Tick}, v ≠ 0#16 → (1 : ℚ) ≤ v.toNat := fun {v} hv => by
    have : v.toNat ≠ 0 := fun q => hv (BitVec.eq_of_toNat_eq q)
    exact_mod_cast Nat.one_le_iff_ne_zero.mpr this
  have le_max : ∀ {m : ℕ}, m < 65536 → (m : ℚ) ≤ 65535 := fun {m} hm => by exact_mod_cast Nat.le_of_lt_succ hm
  have hoffset : offset t < 65536 := lt_of_le_of_lt (min_le_left _ _) (tickAt t .temp1).isLt
  have href := pos h0
  have hlow := pos hr
  have hhigh := le_max (tickAt t r).isLt
  have hoff := le_max hoffset
  have hoff0 : (0 : ℚ) ≤ (offset t : ℕ) := Nat.cast_nonneg _
  refine ⟨_, normOf_exact h0 r, ?_, ?_⟩
  · rw [le_div_iff₀ (by linarith)]
    linarith
  · rw [div_le_iff₀ (by linarith)]
    linarith

/-- A rounded value lies between the rounded bounds. -/
theorem roundHalfUp_bounds {x : ℚ} {a b : ℤ} (ha : (a : ℚ) ≤ x + 1 / 2) (hb : x + 1 / 2 < b + 1) :
    a ≤ roundHalfUp x ∧ roundHalfUp x ≤ b := by
  rw [roundHalfUp_eq_floor]
  refine ⟨Int.le_floor.mpr ha, Int.lt_add_one_iff.mp (Int.floor_lt.mpr ?_)⟩
  push_cast
  exact hb

/-- The range of ERPM (R21, R113). -/
theorem rpmOf_range {t : Ticks} (h0 : tickAt t .reference ≠ 0#16) (hr : tickAt t .rpm ≠ 0#16) :
    -1337988018 ≤ rpmOf exactFormat (normOf exactFormat t .rpm) ∧
    rpmOf exactFormat (normOf exactFormat t .rpm) ≤ 1338008435 := by
  obtain ⟨n, hn, hlow, hhigh⟩ := normOf_exact_bounds h0 hr
  rw [hn, rpmOf_exact]
  apply roundHalfUp_bounds <;> norm_num [Config.kRpm] <;> linarith

/-- The range of OUTPUT_POWER (R21, R112). -/
theorem powerOf_range {t : Ticks} (h0 : tickAt t .reference ≠ 0#16) (hr : tickAt t .outputPower ≠ 0#16) :
    -1639661 ≤ powerOf exactFormat (normOf exactFormat t .outputPower) ∧
    powerOf exactFormat (normOf exactFormat t .outputPower) ≤ 1639686 := by
  obtain ⟨n, hn, hlow, hhigh⟩ := normOf_exact_bounds h0 hr
  rw [hn, powerOf_exact]
  apply roundHalfUp_bounds <;> norm_num [Config.kPower, Config.kPercent] <;> linarith

/-- The ranges of one record (R21). -/
def Block.Reading.InRange {α : Type} (r : Block.Reading α) : Prop :=
  (∀ z, r.erpm = some z → -1337988018 ≤ z ∧ z ≤ 1338008435) ∧
  ∀ z, r.outputPower = some z → -1639661 ≤ z ∧ z ≤ 1639686

theorem Block.State.ranges_iff {α : Type} (s : Block.State α) : s.Ranges ↔ ∀ e, (s.record e).InRange :=
  ⟨fun h e => ⟨h.erpm e, h.outputPower e⟩, fun h => ⟨fun e => (h e).1, fun e => (h e).2⟩⟩

theorem Block.Reading.inRange_default {α : Type} : ({} : Block.Reading α).InRange :=
  ⟨nofun, nofun⟩

/-- A decode keeps the ranges of its record. -/
theorem allChannels_inRange {t : Ticks} (h0 : t[0] ≠ 0#16) {d : Block.DecodeRun Num} (h : d.reading.InRange) :
    (Block.allChannels configured t d).reading.InRange := by
  obtain ⟨herpm, hpower⟩ := h
  refine ⟨fun z hz => ?_, fun z hz => ?_⟩
  · rw [Block.allChannels_erpm] at hz
    split at hz
    case isTrue => exact herpm z hz
    case isFalse hr => cases hz; exact rpmOf_range h0 hr
  · rw [Block.allChannels_outputPower] at hz
    split at hz
    case isTrue => exact hpower z hz
    case isFalse hr => cases hz; exact powerOf_range h0 hr

/-- Settles O58: a decode is the only step that writes the integer fields, and it writes them in range. -/
theorem stepKeepsIntegerRanges : Obligations.StepKeepsIntegerRanges := by
  intro s t h hs
  rw [Block.State.ranges_iff] at h ⊢
  refine step_keeps (Q := fun s => ∀ e, (s.record e).InRange) (fun _ _ h => h) (fun _ _ h => h) (fun _ _ h => h)
    (hbyte := fun b s h e => ?_) (htable := fun s c _ _ e => ?_) (hpoles := fun s e p h _ _ _ f => ?_)
    (hreset := fun e => ?_) h hs
  · rcases Block.byteStep_record configured b s e with hr | ⟨-, h0, hr⟩
    · rw [hr]; exact h e
    · rw [hr]; exact allChannels_inRange h0 (h e)
  · rw [Block.State.resetTable_record]; exact Block.Reading.inRange_default
  · by_cases hf : f = e
    · rw [hf, Block.State.setRecord_record_same]; exact h e
    · rw [Block.State.setRecord_record_other hf]; exact h f
  · rw [State.reset, Block.State.initial_record]; exact Block.Reading.inRange_default

/-- Settles O55: right after reset no frame is in progress and both records are unwritten. -/
theorem resetMeetsTheInvariants : Obligations.ResetMeetsTheInvariants := by
  refine ⟨Block.State.initial_inv, Block.State.ckMeans_of_cnt_zero rfl, (Block.State.ranges_iff _).mpr fun e => ?_⟩
  rw [State.reset, Block.State.initial_record]
  exact Block.Reading.inRange_default

/-! ### Runs over bytes given one at a time -/

theorem run_succ {k : ℕ} {s u : State} (h : step s = .next u) :
    Sys2Proof.core.run (k + 1) s = Sys2Proof.core.run k u := by
  have hcore : Sys2Proof.core.step s = .next u := h
  simp only [Host.Core.run, hcore]

/-- A step on a byte at the head of the input. -/
theorem step_byte {s : State} {b : Byte} {rest : List Input} (h : s.input = .byte b :: rest) :
    step s = .next (Block.byteStep configured b (s.withInput rest)) :=
  step_of_decodeInput h rfl

/-- `CNT` goes to 0 or one up, and up only inside a frame (section 9 of 40_frame_parser.md). -/
theorem Block.feed_cnt_cases {α : Type} (b : Byte) (s : Block.State α) :
    (Block.feed b s).1.cnt = 0 ∨ (s.cnt ≤ 23 ∧ (Block.feed b s).1.cnt = s.cnt + 1) := by
  rcases Block.feed_cases b s with ⟨h, f⟩ | ⟨h, _, f⟩ | ⟨_, _, _, f⟩ | ⟨_, _, _, f⟩ | ⟨_, h, _, f⟩ | ⟨_, h, _, f⟩ |
    ⟨_, _, f⟩ | ⟨_, _, f⟩ <;> rw [f]
  case inl => exact .inr ⟨by omega, by rw [h]; rfl⟩
  case inr.inl => exact .inr ⟨by omega, by rw [h]; rfl⟩
  case inr.inr.inr.inr.inl => exact .inr ⟨by omega, rfl⟩
  case inr.inr.inr.inr.inr.inl => exact .inr ⟨h, rfl⟩
  all_goals exact .inl rfl

/-- Bytes that make up the rest of the longest frame bring the parser back to expecting a header (R97). -/
theorem exists_run_cnt_zero (bs : List Byte) {s : State} (hin : s.input = bs.map Input.byte)
    (hlen : 25 ≤ s.cnt + bs.length) (hcnt : s.cnt ≤ 24) :
    ∃ (k : ℕ) (t : State), 1 ≤ k ∧ k ≤ bs.length ∧ Sys2Proof.core.run k s = .next t ∧ t.cnt = 0 := by
  induction bs generalizing s with
  | nil => simp only [List.length_nil] at hlen; omega
  | cons b bs ih =>
    have hstep := step_byte (s := s) hin
    have hcnt' := Block.byteStep_cnt configured b (s.withInput (bs.map Input.byte))
    rcases Block.feed_cnt_cases b (s.withInput (bs.map Input.byte)) with h | ⟨hle, h⟩
    · exact ⟨1, _, le_refl 1, by simp, run_succ hstep, hcnt'.trans h⟩
    · rw [h, Block.State.withInput_cnt] at hcnt'
      rw [Block.State.withInput_cnt] at hle
      simp only [List.length_cons] at hlen
      obtain ⟨k, t, hk, hk', hrun, ht⟩ := ih (s := Block.byteStep configured b (s.withInput (bs.map Input.byte)))
        (Block.byteStep_input _ _ _) (by omega) (by omega)
      exact ⟨k + 1, t, by omega, by simpa using hk', (run_succ hstep).trans hrun, ht⟩

/-- Settles O60: 25 bytes are at least as many as the parser can still need. -/
theorem huntingAgainWithinAFrame : Obligations.HuntingAgainWithinAFrame := by
  intro s bs hcnt hlen
  obtain ⟨k, t, hk, hk', hrun, ht⟩ :=
    exists_run_cnt_zero bs (s := s.withInput (bs.map Input.byte)) rfl (by simp [hlen]) hcnt
  exact ⟨k, t, hk, hlen ▸ hk', hrun, ht⟩

end Sys2Proof.Machine

/-! PROOFS. The remaining per-byte rows (R80 to R89) and the `BYTE` step as the ingest stage's (R100 to R125). -/

namespace Sys2Proof.Machine

/-! ### The per-byte rows -/

theorem exec_dataLo_eq_feedRow (b : Byte) (s : State) : exec (.dataLo b) s = .next (Block.feedRow b s) := by
  refine congrArg _ <| Block.parserRow_eq_feed fun h => ?_
  obtain ⟨hlow, hhigh, hodd⟩ := of_decide_eq_true h
  exact (Block.feed_at_odd hlow hhigh hodd b).symm

theorem exec_cksumMismatch_eq_feedRow (b : Byte) (s : State) :
    exec (.cksumMismatch b) s = .next (Block.feedRow b s) := by
  refine congrArg _ <| Block.parserRow_eq_feed fun h => ?_
  obtain ⟨hc, hb⟩ : s.cnt = 24 ∧ b ≠ s.ck := by simpa using h
  exact (Block.feed_mismatch hc.ge hb).symm

/-- The nine per-byte rows for a byte (R80). -/
def perByteRows (b : Byte) : List Instr :=
  [.hdrHi b, .hdrLo b, .hdrLoTelemetry b, .hdrLoResponse b, .hdrLoFraming b, .dataHi b, .dataLo b, .cksumMatch b,
   .cksumMismatch b]

theorem exec_perByteRow {b : Byte} {i : Instr} (h : i ∈ perByteRows b) (s : State) :
    exec i s = .next (Block.feedRow b s) := by
  simp only [perByteRows, List.mem_cons, List.not_mem_nil, or_false] at h
  rcases h with rfl | rfl | rfl | rfl | rfl | rfl | rfl | rfl | rfl
  · exact exec_hdrHi_eq_feedRow b s
  · exact exec_hdrLo_eq_feedRow b s
  · exact exec_hdrLoTelemetry_eq_feedRow b s
  · exact exec_hdrLoResponse_eq_feedRow b s
  · exact exec_hdrLoFraming_eq_feedRow b s
  · exact exec_dataHi_eq_feedRow b s
  · exact exec_dataLo_eq_feedRow b s
  · exact exec_cksumMatch_eq_feedRow b s
  · exact exec_cksumMismatch_eq_feedRow b s

theorem selectOp_mem (cnt : Nat) (hi ck b : Byte) : selectOp cnt hi ck b ∈ perByteRows b := by
  unfold selectOp
  split_ifs <;> simp [perByteRows]

/-- Settles O10: every per-byte row answers what `feed` gives, and the selected operation is one of them. -/
theorem byteRunsTheSelectedOperation : Obligations.ByteRunsTheSelectedOperation := by
  intro s b i hi
  have hrow := exec_perByteRow (b := b) hi s
  exact ⟨hrow.trans (exec_perByteRow (selectOp_mem _ _ _ b) s).symm, _, hrow⟩

/-- A pair that meets neither header test as arithmetic says it (R67, R82). -/
theorem headerTests_eq_false {h l : Byte} (ht : ¬(h = 0xFF#8 ∧ l.toNat / 16 = 15))
    (hr : ¬(h = 0x55#8 ∧ l.toNat / 2 = 85)) : isTelemetryHeader h l = false ∧ isResponseHeader h l = false :=
  ⟨Bool.eq_false_iff.mpr fun q => ht ((isTelemetryHeader_iff_nibble h l).mp q),
    Bool.eq_false_iff.mpr fun q => hr ((isResponseHeader_iff_half h l).mp q)⟩

/-- Settles O4: the pair meets neither header test, so the framing outcome is selected (R85). -/
theorem failedPairClearsParser : Obligations.FailedPairClearsParser := by
  intro s b hc ht hr
  obtain ⟨ht, hr⟩ := headerTests_eq_false ht hr
  rw [exec_hdrLoFraming_eq_feedRow, Block.feedRow_of_feed (Block.feed_failedPair hc ht hr)]
  rfl

/-- Settles O7: position `2 j + 3` is the low byte of tick `j` (R87). -/
theorem dataLowByteStoresOneTick : Obligations.DataLowByteStoresOneTick := by
  intro s b hlow hhigh hodd
  have hrow := Block.feedRow_of_feed (Block.feed_at_odd hlow hhigh hodd b)
  refine ⟨_, (exec_dataLo_eq_feedRow b s).trans (congrArg _ hrow), fun j => ?_, rfl⟩
  have hpos : 2 * j.val + 3 = s.cnt ↔ (s.cnt - 3) / 2 = j.val := by omega
  refine (congrArg BitVec.toNat (Block.dataLo_ticks_getElem b s j)).trans ?_
  rw [apply_ite BitVec.toNat, tickOf_toNat, if_congr hpos rfl rfl]

/-- Settles O9: at `CNT = 24` a byte other than `CK` selects `CKSUM.MISMATCH` (R89). -/
theorem checksumMismatchClearsParser : Obligations.ChecksumMismatchClearsParser := by
  intro s b hc hb
  rw [exec_cksumMismatch_eq_feedRow, Block.feedRow_of_feed (Block.feed_mismatch hc.ge hb)]
  rfl

/-! ### The `BYTE` step -/

theorem exec_ingest (b : Byte) (s : State) : exec (.ingest b) s = .next (Block.byteStep configured b s) := rfl

/-- Settles O14: the mismatch is surfaced before the frame's fields are looked at (R89, R142). -/
theorem checksumMismatchSurfaced : Obligations.ChecksumMismatchSurfaced := by
  intro s b hc hb
  rw [exec_ingest_of_feed (Block.feed_mismatch hc.ge hb)]
  rfl

/-- Settles O15: an identifier of `N_ESC` or more has no record (R101). -/
theorem frameWithoutRecordDropped : Obligations.FrameWithoutRecordDropped := by
  intro s b hc hb hesc
  have hdrop := Block.acceptFrame_dropped configured (s := { s with cnt := 0 }) 
    (Block.recordOf_eq_none.mpr hesc)
  rw [exec_ingest_of_feed (Block.feed_match hc.ge hb), Block.actOn, hdrop]
  rfl

/-- Settles O11: `CNT` and the parser result of a `BYTE` step are those of `feed`, outcome by outcome. -/
theorem byteCounterTransitionTable : Obligations.ByteCounterTransitionTable := by
  intro s b hle
  obtain ⟨o, ho⟩ := List.length_eq_one_iff.mp (Block.byteStep_out_length configured b s)
  have hparser : o.parser = some (Block.feed b s).2 := Block.actOn_delivers_parser ho
  refine ⟨_, o, exec_ingest b s, ho, ?_⟩
  rw [Block.byteStep_cnt, hparser]
  have htel := isTelemetryHeader_iff s.hi b
  have hres := isResponseHeader_iff s.hi b
  refine ⟨fun h => ?_, fun h ht => ?_, fun h hr => ?_, fun h ht hr => ?_, fun hlow hhigh => ?_, fun h hb => ?_,
    fun h hb => ?_⟩
  · rw [Block.feed_at_zero h]
    exact ⟨rfl, rfl⟩
  · rw [Block.feed_telemetryHeader h (htel.mpr ht)]
    exact ⟨rfl, rfl⟩
  · have hbit : b.toNat % 2 = 1 ↔ b.toNat = 171 := by omega
    have hr' := hres.mpr hr
    rw [Block.feed_responseHeader h (isTelemetryHeader_eq_false_of_response hr') hr', Block.hdrLoResponse,
      respField_eq_decide, decide_eq_decide.mpr hbit]
    exact ⟨rfl, rfl⟩
  · rw [Block.feed_failedPair h (Bool.eq_false_iff.mpr fun q => ht (htel.mp q))
      (Bool.eq_false_iff.mpr fun q => hr (hres.mp q))]
    exact ⟨rfl, rfl⟩
  · rcases Nat.mod_two_eq_zero_or_one s.cnt with heven | hodd
    · rw [Block.feed_at_even hlow (by omega) heven]
      exact ⟨rfl, rfl⟩
    · rw [Block.feed_at_odd (by omega) hhigh hodd]
      exact ⟨rfl, rfl⟩
  · rw [Block.feed_match h.ge hb]
    exact ⟨rfl, rfl⟩
  · rw [Block.feed_mismatch h.ge hb]
    exact ⟨rfl, rfl⟩

namespace Block

variable {α : Type}

/-- Before the checksum byte, `feed` reports nothing but a completed response (R81 to R87). -/
theorem feed_result_of_unfinished {b : Byte} {s : State α} (h : s.cnt ≤ 23) :
    (feed b s).2 = .pNone ∨
    (s.cnt = 1 ∧ isResponseHeader s.hi b = true ∧ (feed b s).2 = .pResponse (respField b)) := by
  rcases feed_cases b s with ⟨_, f⟩ | ⟨_, _, f⟩ | ⟨h1, _, hr, f⟩ | ⟨_, _, _, f⟩ | ⟨_, _, _, f⟩ | ⟨_, _, _, f⟩ |
    ⟨_, _, _⟩ | ⟨_, _, _⟩
  case inr.inr.inl => exact .inr ⟨h1, hr, by rw [f]; rfl⟩
  case inr.inr.inr.inr.inr.inr.inl => omega
  case inr.inr.inr.inr.inr.inr.inr => omega
  all_goals exact .inl (by rw [f]; rfl)

/-- `TP_CHANGED` among the events of a decode that returned `Ok` (R123). -/
theorem tpChanged_mem_decodeEvents {e : RecIdx} {changed : Bool} {s : State α} {q : Bool} :
    .tpChanged q ∈ decodeEvents e changed s ↔ s.tp ≠ s.tpReported ∧ q = s.tp := by
  by_cases htp : s.tp = s.tpReported <;> cases changed <;> simp [decodeEvents, htp]

/-- What a `BYTE` step reports of the throttle's presence (R123): a step without an `Ok` decode leaves `TP_REPORTED` and
raises no `TP_CHANGED`; an `Ok` decode sets it to `TP` and raises `TP_CHANGED(TP)` exactly on a transition. -/
theorem actOn_tp_cases {P : NumParams α} {p : ParserResult} {s : State α} {o : Output α}
    (ho : (actOn P p s).out = [o]) :
    ((∀ c, o.decoded ≠ some (.ok c)) ∧ (actOn P p s).tpReported = s.tpReported ∧ ∀ q, .tpChanged q ∉ o.events) ∨
    ((∃ c, o.decoded = some (.ok c)) ∧ (actOn P p s).tpReported = s.tp ∧
      ∀ q, .tpChanged q ∈ o.events ↔ s.tp ≠ s.tpReported ∧ q = s.tp) := by
  cases p with
  | pNone => cases ho; exact .inl ⟨by simp, rfl, by simp⟩
  | pResponse r => cases ho; exact .inl ⟨by simp, rfl, by simp⟩
  | pChecksumError => cases ho; exact .inl ⟨by simp, rfl, by simp [errorEvents]⟩
  | pTelemetry =>
    rw [actOn] at ho ⊢
    rcases hr : recordOf s.escId s.nEsc with _ | e
    · rw [acceptFrame_dropped P hr] at ho ⊢
      cases ho
      exact .inl ⟨by simp, rfl, by simp⟩
    by_cases h0 : s.ticks[0] = 0#16
    · rw [acceptFrame_zeroReference P hr h0] at ho ⊢
      cases ho
      exact .inl ⟨by simp, rfl, by simp [errorEvents]⟩
    · rw [acceptFrame_decoded P hr h0] at ho ⊢
      cases ho
      exact .inr ⟨⟨_, rfl⟩, by simp [State.wroteBack], fun _ => tpChanged_mem_decodeEvents⟩

/-- The events of a decode that returned `Ok`, by its two independent parts (R122, R123, R146). -/
theorem decodeEvents_cases (e : RecIdx) (changed : Bool) (s : State α) :
    decodeEvents e changed s = [] ∨ decodeEvents e changed s = [.dataUpdated e (s.record e)] ∨
    decodeEvents e changed s = [.tpChanged s.tp] ∨
    decodeEvents e changed s = [.dataUpdated e (s.record e), .tpChanged s.tp] := by
  by_cases htp : s.tp = s.tpReported <;> cases changed <;> simp [decodeEvents, htp]

/-- A `BYTE` step changes a reading only by decoding an accepted frame into a record in use (R101, R103). -/
theorem byteStep_readings_cases (P : NumParams α) (b : Byte) (s : State α) :
    (byteStep P b s).readings = s.readings ∨
    (24 ≤ s.cnt ∧ b = s.ck ∧ s.ticks[0] ≠ 0#16 ∧ ∃ e, recordOf s.escId s.nEsc = some e ∧
      ∀ f, f ≠ e → (byteStep P b s).record f = s.record f) := by
  rw [byteStep]
  cases hp : (feed b s).2 with
  | pNone => exact .inl (feed_readings b s)
  | pResponse r => exact .inl (feed_readings b s)
  | pChecksumError => exact .inl (feed_readings b s)
  | pTelemetry =>
    obtain ⟨hend, hb, hf⟩ := feed_accepts hp
    rw [hf, actOn]
    rcases hr : recordOf s.escId s.nEsc with _ | e
    · rw [acceptFrame_dropped P (s := (cksumMatch s).1) hr]
      exact .inl rfl
    by_cases h0 : s.ticks[0] = 0#16
    · rw [acceptFrame_zeroReference P (s := (cksumMatch s).1) hr h0]
      exact .inl rfl
    · refine .inr ⟨hend, hb, h0, e, rfl, fun f hf => ?_⟩
      rw [acceptFrame_decoded P (s := (cksumMatch s).1) hr h0, State.deliver_record, State.reportTp_record]
      exact State.setRecord_record_other hf _ _

theorem recordOf_eq_some {esc : EscId} {n : EscCount} {e : RecIdx} (hesc : esc.toNat = e.val) (hlt : e.val < n.val) :
    recordOf esc n = some e := by
  rw [recordOf, dif_pos (hesc ▸ hlt)]
  exact congrArg some (Fin.ext hesc)

/-- `DECODE` with a reference (R102). -/
theorem runDecode_eq {s : State α} (h0 : s.ticks[0] ≠ 0#16) (P : NumParams α) (e : RecIdx) :
    runDecode P e s = (s.wroteBack e (decodeRunOf P e s)).deliver
      { decoded := some (.ok (decodeRunOf P e s).changed) } :=
  decodeRow_ok h0 (allChannels P) e

end Block

/-- Settles O12: the parser result is `P_NONE` or a response, on which the step acts without a decode. -/
theorem unfinishedFrameTouchesOnlyParser : Obligations.UnfinishedFrameTouchesOnlyParser := by
  intro s b hle
  refine ⟨_, exec_ingest b s, Block.byteStep_nEsc _ _ _, ?_⟩
  rw [Block.byteStep_input, Block.byteStep]
  rcases Block.feed_result_of_unfinished (b := b) hle with hp | ⟨h1, hr, hp⟩ <;> rw [hp, Block.actOn]
  · exact ⟨Block.feed_readings b s, Block.feed_tpReported b s, rfl, Block.feed_free b s, fun _ => rfl⟩
  · exact ⟨Block.feed_readings b s, Block.feed_tpReported b s, rfl, Block.feed_free b s,
      fun hno => absurd ⟨h1, (isResponseHeader_iff_half _ _).mp hr⟩ hno⟩

/-- Settles O17: the step decodes the state that the matching checksum leaves, as `DECODE` does, then reports `TP`. -/
theorem acceptedFrameDecodedAndReported : Obligations.AcceptedFrameDecodedAndReported := by
  intro s e hc hesc hlt h0
  have hdecode := Block.runDecode_eq (s := { s with cnt := 0 }) h0 configured e
  have haccept := Block.acceptFrame_decoded configured (s := { s with cnt := 0 }) (Block.recordOf_eq_some hesc hlt) h0
  refine ⟨_, _, congrArg Host.Outcome.next hdecode, rfl, ?_⟩
  rw [exec_ingest_of_feed (Block.feed_match hc.ge rfl), Block.actOn]
  refine congrArg _ (haccept.trans ?_)
  rw [Block.State.reportTp_eq]
  rfl

/-- Settles O19: `TP_REPORTED` after the step is `TP` where a decode returned `Ok`, and what it was elsewhere. -/
theorem throttlePresenceOnTransition : Obligations.ThrottlePresenceOnTransition := by
  intro s t b o ht ho
  obtain rfl := eq_actOn_of_exec_ingest ht
  rw [← Block.feed_tpReported b s]
  have htp : (Block.actOn configured (Block.feed b s).2 (Block.feed b s).1).tp = (Block.feed b s).1.tp :=
    Block.byteStep_tp configured b s
  rcases Block.actOn_tp_cases ho with ⟨hdec, hrep, hev⟩ | ⟨⟨c, hdec⟩, hrep, hev⟩
  · refine ⟨fun ⟨c, hc⟩ => absurd hc (hdec c), fun _ => hrep, fun p => ?_⟩
    simp [hev, hrep]
  · refine ⟨fun _ => hrep.trans htp.symm, fun h => absurd hdec (h c), fun p => ?_⟩
    rw [hev, hrep]

/-- Settles O20: the events by the parser result and, for an accepted frame, by how it ends. -/
theorem eventCombinationsOfOneStep : Obligations.EventCombinationsOfOneStep := by
  intro s t b o ht ho
  obtain rfl := eq_actOn_of_exec_ingest ht
  cases hp : (Block.feed b s).2 with
  | pNone => rw [hp] at ho; cases ho; exact .inl rfl
  | pResponse r => rw [hp] at ho; cases ho; exact .inr <| .inl ⟨r, rfl⟩
  | pChecksumError => rw [hp] at ho; cases ho; exact .inr <| .inr <| .inl rfl
  | pTelemetry =>
    rw [hp, Block.actOn] at ho
    rcases Block.acceptFrame_cases configured (Block.feed b s).1 with ⟨_, q⟩ | ⟨_, _, _, q⟩ | ⟨e, c, s', _, _, _, q⟩ <;>
      rw [q] at ho <;> cases ho
    · exact .inl rfl
    · exact .inr <| .inr <| .inr <| .inl rfl
    · rcases Block.decodeEvents_cases e c s' with h | h | h | h
      · exact .inl h
      · exact .inr <| .inr <| .inr <| .inr <| .inl ⟨_, _, h⟩
      · exact .inr <| .inr <| .inr <| .inr <| .inr <| .inl ⟨_, h⟩
      · exact .inr <| .inr <| .inr <| .inr <| .inr <| .inr ⟨_, _, _, h⟩

/-- Settles O21: of all the ways in which a `BYTE` step can end, only the decode of an accepted frame writes a record. -/
theorem byteStepChangesReadingsOnlyByDecode : Obligations.ByteStepChangesReadingsOnlyByDecode := by
  intro s t b hle ht hne
  cases ht
  rcases Block.byteStep_readings_cases configured b s with h | ⟨hend, hb, h0, e, hr, hother⟩
  · exact absurd h hne
  · obtain ⟨hesc, hlt⟩ := Block.recordOf_some hr
    exact ⟨le_antisymm hle hend, hb, h0, e, hesc.symm, hlt, Block.byteStep_record_poles configured b s e, hother⟩

end Sys2Proof.Machine

/-! PROOFS. The decoder's rows (R102 to R121): what `DECODE` and the channel rows leave alone, that a change flag is exact in
the exact format (R120), and the channel rows on their own. -/

namespace Sys2Proof.Machine

namespace Block

variable {α : Type}

/-! ### The frame of a decode row (R102, R103) -/

/-- Each of the ten rows is the decode restricted to some channels, which write no pole count (R102; log entry 8). -/
theorem runAt_decodeRow (P : NumParams α) {e : RecIdx} {i : Instr} (h : i ∈ decodeRows e) :
    ∃ ch, (∀ t, KeepsPoles (ch t)) ∧ ∀ s, runAt P i s = decodeRow ch e s := by
  simp only [decodeRows, List.mem_cons, List.not_mem_nil, or_false] at h
  rcases h with rfl | rfl | rfl | rfl | rfl | rfl | rfl | rfl | rfl | rfl
  · exact ⟨_, allChannels_poles P, fun _ => rfl⟩
  · exact ⟨_, chVoltage_poles P.num, fun _ => rfl⟩
  · exact ⟨_, chRippleVoltage_poles P.num, fun _ => rfl⟩
  · exact ⟨_, chCurrent_poles P.num, fun _ => rfl⟩
  · exact ⟨_, chThrottle_poles P.num, fun _ => rfl⟩
  · exact ⟨_, chOutputPower_poles P.num, fun _ => rfl⟩
  · exact ⟨_, chRpm_poles P.num, fun _ => rfl⟩
  · exact ⟨_, chBecVoltage_poles P.num, fun _ => rfl⟩
  · exact ⟨_, chBecCurrent_poles P.num, fun _ => rfl⟩
  · exact ⟨_, chTemperature_poles P, fun _ => rfl⟩

/-- A decode row changes one record's value fields, the count of free values and what is delivered. -/
theorem runAt_decodeRow_frame (P : NumParams α) (s : State α) {e : RecIdx} {i : Instr} (h : i ∈ decodeRows e) :
    ∃ t, runAt P i s = t ∧ t = { s with readings := t.readings, free := t.free, out := t.out } ∧
      (∀ f, f ≠ e → t.record f = s.record f) ∧ (t.record e).poles = (s.record e).poles := by
  obtain ⟨ch, hpoles, hrow⟩ := runAt_decodeRow P h
  obtain ⟨r, k, hchanges⟩ := decodeWith_changes ch e s
  have hstate : decodeRow ch e s =
      ((s.setRecord e r).withFree k).deliver { decoded := some (decodeWith ch e s).2 } := by
    rw [decodeRow, hchanges]
  exact ⟨_, hrow s, by rw [hstate]; rfl, fun f hf => decodeWith_record_other ch hf s, decodeWith_poles hpoles e e s⟩

end Block

/-- Settles O22: without a reference a decode row is its reference test alone (R103). -/
theorem noReferenceWritesNothing : Obligations.NoReferenceWritesNothing := by
  intro s e h0 i hi
  obtain ⟨ch, -, hrow⟩ := Block.runAt_decodeRow configured hi
  rw [exec_eq_runAt, hrow, Block.decodeRow_noReference (s := s) h0]
  rfl

/-- Settles O23: the frame of a decode row, in any number format and so in the configured one. -/
theorem decodeRowsTouchOneRecord : Obligations.DecodeRowsTouchOneRecord := by
  refine ⟨fun s e i hi => ?_, fun α P s e i hi => Block.runAt_decodeRow_frame P s hi⟩
  obtain ⟨t, ht, hframe⟩ := Block.runAt_decodeRow_frame configured s hi
  exact ⟨t, ht ▸ exec_eq_runAt i s, hframe⟩

/-! ### The change flag in the exact format (R120) -/

namespace Block

theorem chVoltage_changed (t : Ticks) (d : DecodeRun Num) : (chVoltage exactFormat t d).changed = true ↔
    d.changed = true ∨ (chVoltage exactFormat t d).reading.voltage ≠ d.reading.voltage := by
  unfold chVoltage; split <;> simp [updVoltage]
theorem chRippleVoltage_changed (t : Ticks) (d : DecodeRun Num) : (chRippleVoltage exactFormat t d).changed = true ↔
    d.changed = true ∨ (chRippleVoltage exactFormat t d).reading.rippleVoltage ≠ d.reading.rippleVoltage := by
  unfold chRippleVoltage; split <;> simp [updRippleVoltage]
theorem chCurrent_changed (t : Ticks) (d : DecodeRun Num) : (chCurrent exactFormat t d).changed = true ↔
    d.changed = true ∨ (chCurrent exactFormat t d).reading.current ≠ d.reading.current := by
  unfold chCurrent; split <;> simp [updCurrent]
theorem chThrottle_changed (t : Ticks) (d : DecodeRun Num) : (chThrottle exactFormat t d).changed = true ↔
    d.changed = true ∨ (chThrottle exactFormat t d).reading.throttle ≠ d.reading.throttle := by
  unfold chThrottle; split <;> simp [updThrottle]
theorem chOutputPower_changed (t : Ticks) (d : DecodeRun Num) : (chOutputPower exactFormat t d).changed = true ↔
    d.changed = true ∨ (chOutputPower exactFormat t d).reading.outputPower ≠ d.reading.outputPower := by
  unfold chOutputPower; split <;> simp [updOutputPower]
theorem chRpm_changed (t : Ticks) (d : DecodeRun Num) : (chRpm exactFormat t d).changed = true ↔
    d.changed = true ∨ (chRpm exactFormat t d).reading.erpm ≠ d.reading.erpm := by
  unfold chRpm; split <;> simp [updErpm]
theorem chBecVoltage_changed (t : Ticks) (d : DecodeRun Num) : (chBecVoltage exactFormat t d).changed = true ↔
    d.changed = true ∨ (chBecVoltage exactFormat t d).reading.becVoltage ≠ d.reading.becVoltage := by
  unfold chBecVoltage; split <;> simp [updBecVoltage]
theorem chBecCurrent_changed (t : Ticks) (d : DecodeRun Num) : (chBecCurrent exactFormat t d).changed = true ↔
    d.changed = true ∨ (chBecCurrent exactFormat t d).reading.becCurrent ≠ d.reading.becCurrent := by
  unfold chBecCurrent; split <;> simp [updBecCurrent]
theorem chTemperature_changed (t : Ticks) (d : DecodeRun Num) : (chTemperature configured t d).changed = true ↔
    d.changed = true ∨ (chTemperature configured t d).reading.temperature ≠ d.reading.temperature := by
  unfold chTemperature
  split
  · simp
  · split <;> simp [updTemperature]

/-- A continuation of a decode whose change flag says exactly whether it made the record different (R120). -/
def FlagExact (c : DecodeRun Num → DecodeRun Num) : Prop :=
  ∀ d, d.changed = false → ((c d).changed = true ↔ (c d).reading ≠ d.reading)

theorem chVoltage_flagExact (t : Ticks) : FlagExact (chVoltage exactFormat t) := by
  intro d hd; rw [chVoltage_changed, chVoltage_reading]; split <;> simp [hd, Reading.ext_iff]
theorem chRippleVoltage_flagExact (t : Ticks) : FlagExact (chRippleVoltage exactFormat t) := by
  intro d hd; rw [chRippleVoltage_changed, chRippleVoltage_reading]; split <;> simp [hd, Reading.ext_iff]
theorem chCurrent_flagExact (t : Ticks) : FlagExact (chCurrent exactFormat t) := by
  intro d hd; rw [chCurrent_changed, chCurrent_reading]; split <;> simp [hd, Reading.ext_iff]
theorem chThrottle_flagExact (t : Ticks) : FlagExact (chThrottle exactFormat t) := by
  intro d hd; rw [chThrottle_changed, chThrottle_reading]; split <;> simp [hd, Reading.ext_iff]
theorem chOutputPower_flagExact (t : Ticks) : FlagExact (chOutputPower exactFormat t) := by
  intro d hd; rw [chOutputPower_changed, chOutputPower_reading]; split <;> simp [hd, Reading.ext_iff]
theorem chRpm_flagExact (t : Ticks) : FlagExact (chRpm exactFormat t) := by
  intro d hd; rw [chRpm_changed, chRpm_reading]; split <;> simp [hd, Reading.ext_iff]
theorem chBecVoltage_flagExact (t : Ticks) : FlagExact (chBecVoltage exactFormat t) := by
  intro d hd; rw [chBecVoltage_changed, chBecVoltage_reading]; split <;> simp [hd, Reading.ext_iff]
theorem chBecCurrent_flagExact (t : Ticks) : FlagExact (chBecCurrent exactFormat t) := by
  intro d hd; rw [chBecCurrent_changed, chBecCurrent_reading]; split <;> simp [hd, Reading.ext_iff]
theorem chTemperature_flagExact (t : Ticks) : FlagExact (chTemperature configured t) := by
  intro d hd
  have hreading := chTemperature_reading configured t d
  have hfield : (chTemperature configured t d).reading = d.reading ↔
      (chTemperature configured t d).reading.temperature = d.reading.temperature :=
    ⟨congrArg Reading.temperature, fun h => by rw [hreading, h]⟩
  simp [chTemperature_changed, hd, hfield]

/-- Each channel writes a field of its own, so the flags of the channels together say whether any field is different. -/
theorem allChannels_flagExact (t : Ticks) : FlagExact (allChannels configured t) := by
  intro d hd
  have hpoles := allChannels_poles configured t d
  rw [Ne, Reading.ext_iff, hpoles, allChannels_voltage, allChannels_rippleVoltage,
    allChannels_current, allChannels_throttle, allChannels_outputPower, allChannels_erpm, allChannels_becVoltage,
    allChannels_becCurrent, allChannels, chTemperature_changed, eightChannels_temperature]
  simp only [eightChannels, chBecCurrent_changed, chBecVoltage_changed, chRpm_changed, chOutputPower_changed,
    chThrottle_changed, chCurrent_changed, chRippleVoltage_changed, chVoltage_changed, chVoltage_reading,
    chRippleVoltage_reading, chCurrent_reading, chThrottle_reading, chOutputPower_reading, chRpm_reading,
    chBecVoltage_reading, chBecCurrent_reading, apply_ite Reading.voltage, apply_ite Reading.rippleVoltage,
    apply_ite Reading.current, apply_ite Reading.throttle, apply_ite Reading.outputPower, apply_ite Reading.erpm,
    apply_ite Reading.becVoltage, apply_ite Reading.becCurrent, ite_self, hd, configured_num]
  simp only [Bool.false_eq_true, false_or, and_true, not_and_or, or_assoc]

/-! ### The free values that a channel uses (log entry 5) -/

/-- A continuation of a decode that uses no free value. -/
def KeepsFree {α : Type} (c : DecodeRun α → DecodeRun α) : Prop := ∀ d, (c d).free = d.free

section
variable {α : Type}

theorem chVoltage_free (f : NumFormat α) (t : Ticks) : KeepsFree (chVoltage f t) := by
  intro d; unfold chVoltage; split <;> rfl
theorem chRippleVoltage_free (f : NumFormat α) (t : Ticks) : KeepsFree (chRippleVoltage f t) := by
  intro d; unfold chRippleVoltage; split <;> rfl
theorem chCurrent_free (f : NumFormat α) (t : Ticks) : KeepsFree (chCurrent f t) := by
  intro d; unfold chCurrent; split <;> rfl
theorem chThrottle_free (f : NumFormat α) (t : Ticks) : KeepsFree (chThrottle f t) := by
  intro d; unfold chThrottle; split <;> rfl
theorem chOutputPower_free (f : NumFormat α) (t : Ticks) : KeepsFree (chOutputPower f t) := by
  intro d; unfold chOutputPower; split <;> rfl
theorem chRpm_free (f : NumFormat α) (t : Ticks) : KeepsFree (chRpm f t) := by
  intro d; unfold chRpm; split <;> rfl
theorem chBecVoltage_free (f : NumFormat α) (t : Ticks) : KeepsFree (chBecVoltage f t) := by
  intro d; unfold chBecVoltage; split <;> rfl
theorem chBecCurrent_free (f : NumFormat α) (t : Ticks) : KeepsFree (chBecCurrent f t) := by
  intro d; unfold chBecCurrent; split <;> rfl

end

/-! ### A row on its own in the exact format -/

/-- The state after a row whose flag is exact, by what its channel leaves (R120). -/
theorem decodeRow_wrote_withFree {ch : Ticks → DecodeRun Num → DecodeRun Num} {s : Machine.State}
    (h0 : s.ticks[0] ≠ 0#16) (e : RecIdx) (hflag : FlagExact (ch s.ticks)) {r : Machine.Reading} {k : Nat}
    (hreading : (ch s.ticks ⟨s.record e, false, s.free⟩).reading = r)
    (hfree : (ch s.ticks ⟨s.record e, false, s.free⟩).free = k) : decodeRow ch e s = (s.wrote e r).withFree k := by
  have hchanged : (ch s.ticks ⟨s.record e, false, s.free⟩).changed = decide (r ≠ s.record e) := by
    rw [Bool.eq_iff_iff, hflag _ rfl, hreading, decide_eq_true_iff]
  rw [decodeRow_ok (s := s) h0, hchanged, hreading, hfree]
  rfl

/-- The state after such a row that uses no free value. -/
theorem decodeRow_wrote {ch : Ticks → DecodeRun Num → DecodeRun Num} {s : Machine.State} (h0 : s.ticks[0] ≠ 0#16)
    (e : RecIdx) (hflag : FlagExact (ch s.ticks)) {r : Machine.Reading}
    (hreading : (ch s.ticks ⟨s.record e, false, s.free⟩).reading = r)
    (hfree : (ch s.ticks ⟨s.record e, false, s.free⟩).free = s.free) : decodeRow ch e s = s.wrote e r :=
  decodeRow_wrote_withFree h0 e hflag hreading hfree

/-! ### The operands in the exact format (R106, R108 to R115) -/

/-- The normalised value by tick index as a rational number (R106). -/
theorem State.normalizedIn_exact {s : State Num} (h0 : s.ticks[0] ≠ 0#16) (i : Fin 11) :
    s.normalizedIn exactFormat i = .rat (s.normalized i) := by
  have href : (((s.ticks[0].toNat : ℕ) : ℤ) : ℚ) ≠ 0 := fun q => h0 (BitVec.eq_of_toNat_eq (by simpa using q))
  unfold State.normalizedIn
  rw [exactFormat_ofInt, exactFormat_ofInt, exactFormat_div href, State.normalized]
  push_cast
  rfl

theorem scaled_normOf {s : State Num} (h0 : s.ticks[0] ≠ 0#16) (k : ℚ) (r : Role) :
    scaled exactFormat k (normOf exactFormat s.ticks r) = .rat (s.normalized r.index * k) := by
  rw [normOf_eq, State.normalizedIn_exact h0, scaled_exact]

theorem kVoltage_eq : Config.kVoltage = 20 := by norm_num [Config.kVoltage]
theorem kRipple_eq : Config.kRipple = 4 := by norm_num [Config.kRipple]
theorem kCurrent_eq : Config.kCurrent = 50 := by norm_num [Config.kCurrent]
theorem kThrottle_eq : Config.kThrottle = 1 := rfl
theorem kBecVoltage_eq : Config.kBecVoltage = 4 := by norm_num [Config.kBecVoltage]
theorem kBecCurrent_eq : Config.kBecCurrent = 4 := by norm_num [Config.kBecCurrent]

theorem powerOf_normOf {s : State Num} (h0 : s.ticks[0] ≠ 0#16) :
    powerOf exactFormat (normOf exactFormat s.ticks .outputPower) = roundHalfUp (s.normalized 5 * (1251 / 50)) := by
  rw [normOf_eq, State.normalizedIn_exact h0, powerOf_exact, mul_assoc,
    show Config.kPower * Config.kPercent = 1251 / 50 by norm_num [Config.kPower, Config.kPercent]]
  rfl

theorem rpmOf_normOf {s : State Num} (h0 : s.ticks[0] ≠ 0#16) :
    rpmOf exactFormat (normOf exactFormat s.ticks .rpm) = roundHalfUp (s.normalized 6 * (204167 / 10)) := by
  rw [normOf_eq, State.normalizedIn_exact h0, rpmOf_exact,
    show Config.kRpm = 204167 / 10 by norm_num [Config.kRpm]]
  rfl

/-- `ROUND(x)` is the integer part of `x + 1/2` (R5, D9). -/
theorem roundHalfUp_spec (x : ℚ) : (roundHalfUp x : ℚ) ≤ x + 1 / 2 ∧ x + 1 / 2 < roundHalfUp x + 1 :=
  ⟨Int.floor_le _, Int.lt_floor_add_one _⟩

end Block

/-- Settles O27: each row is a decode restricted to one channel, which writes its field or nothing. -/
theorem linearChannelRows : Obligations.LinearChannelRows := by
  intro s e h0
  refine ⟨congrArg _ (Block.decodeRow_wrote h0 e (Block.chVoltage_flagExact _) ?_ (Block.chVoltage_free _ _ _)),
    congrArg _ (Block.decodeRow_wrote h0 e (Block.chRippleVoltage_flagExact _) ?_ (Block.chRippleVoltage_free _ _ _)),
    congrArg _ (Block.decodeRow_wrote h0 e (Block.chCurrent_flagExact _) ?_ (Block.chCurrent_free _ _ _)),
    congrArg _ (Block.decodeRow_wrote h0 e (Block.chThrottle_flagExact _) ?_ (Block.chThrottle_free _ _ _)),
    congrArg _ (Block.decodeRow_wrote h0 e (Block.chBecVoltage_flagExact _) ?_ (Block.chBecVoltage_free _ _ _)),
    congrArg _ (Block.decodeRow_wrote h0 e (Block.chBecCurrent_flagExact _) ?_ (Block.chBecCurrent_free _ _ _))⟩
  · rw [Block.chVoltage_reading, Block.scaled_normOf h0, Block.kVoltage_eq]; rfl
  · rw [Block.chRippleVoltage_reading, Block.scaled_normOf h0, Block.kRipple_eq]; rfl
  · rw [Block.chCurrent_reading, Block.scaled_normOf h0, Block.kCurrent_eq]; rfl
  · rw [Block.chThrottle_reading, Block.scaled_normOf h0, Block.kThrottle_eq, mul_one]; rfl
  · rw [Block.chBecVoltage_reading, Block.scaled_normOf h0, Block.kBecVoltage_eq]; rfl
  · rw [Block.chBecCurrent_reading, Block.scaled_normOf h0, Block.kBecCurrent_eq]; rfl

/-- `CH.OUTPUT_POWER` in the exact format (R112). -/
theorem exec_chOutputPower {s : State} (h0 : s.ticks[0] ≠ 0#16) (e : RecIdx) :
    exec (.chOutputPower e) s = .next (s.wrote e (if s.ticks[5] = 0#16 then s.record e
      else { s.record e with outputPower := some (roundHalfUp (s.normalized 5 * (1251 / 50))) })) := by
  refine congrArg _ (Block.decodeRow_wrote h0 e (Block.chOutputPower_flagExact _) ?_ (Block.chOutputPower_free _ _ _))
  rw [Block.chOutputPower_reading, Block.powerOf_normOf h0]

/-- `CH.RPM` in the exact format (R113). -/
theorem exec_chRpm {s : State} (h0 : s.ticks[0] ≠ 0#16) (e : RecIdx) :
    exec (.chRpm e) s = .next (s.wrote e (if s.ticks[6] = 0#16 then s.record e
      else { s.record e with erpm := some (roundHalfUp (s.normalized 6 * (204167 / 10))) })) := by
  refine congrArg _ (Block.decodeRow_wrote h0 e (Block.chRpm_flagExact _) ?_ (Block.chRpm_free _ _ _))
  rw [Block.chRpm_reading, Block.rpmOf_normOf h0]

/-- Settles O28: the rounded values are the integer parts that `roundHalfUp_spec` names. -/
theorem roundedChannelRows : Obligations.RoundedChannelRows := by
  intro s e h0
  have hpower := exec_chOutputPower h0 e
  have hrpm := exec_chRpm h0 e
  obtain ⟨hplow, hphigh⟩ := Block.roundHalfUp_spec (s.normalized 5 * (1251 / 50))
  obtain ⟨hrlow, hrhigh⟩ := Block.roundHalfUp_spec (s.normalized 6 * (204167 / 10))
  refine ⟨fun h => ?_, fun h => ⟨_, hplow, hphigh, ?_⟩, fun h => ?_, fun h => ⟨_, hrlow, hrhigh, ?_⟩⟩
  · rw [hpower, if_pos h]
  · rw [hpower, if_neg h]
  · rw [hrpm, if_pos h]
  · rw [hrpm, if_neg h]

/-- Settles O30: a decode's flag is exact, and a record is different exactly if the table is. -/
theorem changeFlagSaysTableChanged : Obligations.ChangeFlagSaysTableChanged := by
  intro s e h0
  refine ⟨_, congrArg Host.Outcome.next (Block.runDecode_eq h0 configured e), ?_⟩
  have hflag : (Block.decodeRunOf configured e s).changed = true ↔
      (Block.decodeRunOf configured e s).reading ≠ s.record e := Block.allChannels_flagExact s.ticks _ rfl
  have htable : ∀ r : Reading, s.readings.set e r = s.readings ↔ r = s.record e := fun r => by
    refine ⟨fun h => ?_, fun h => by simp [h, Block.State.record]⟩
    have := congrArg (·[e]) h
    simpa [Block.State.record] using this
  have hchanged : (Block.decodeRunOf configured e s).changed =
      decide (s.readings.set e (Block.decodeRunOf configured e s).reading ≠ s.readings) := by
    rw [Bool.eq_iff_iff, hflag, decide_eq_true_iff, Ne, Ne, htable]
  rw [hchanged]
  rfl

end Sys2Proof.Machine

/-! PROOFS. What `DECODE` writes in each channel (R108 to R119), that a second decode of the same frame changes nothing
(R120), what a decode looks at (R102), and that thermistor values compare exactly (log entry 4). -/

namespace Sys2Proof.Machine

namespace Block

variable {α : Type}

/-! ### The record after `DECODE` -/

/-- The addressed record after `DECODE` with a reference (R102). -/
theorem runAt_decode_record {s : State α} (h0 : s.ticks[0] ≠ 0#16) (P : NumParams α) (e : RecIdx) :
    (runAt P (.decode e) s).record e = (decodeRunOf P e s).reading := by
  rw [runAt, runDecode_eq h0, State.deliver_record, State.wroteBack, State.withFree_record,
    State.setRecord_record_same]

theorem runAt_decode_free {s : State α} (h0 : s.ticks[0] ≠ 0#16) (P : NumParams α) (e : RecIdx) :
    (runAt P (.decode e) s).free = (decodeRunOf P e s).free := by
  rw [runAt, runDecode_eq h0, State.deliver_free, State.wroteBack, State.withFree_free]

/-! ### Temperature in any format (R116 to R119) -/

/-- The temperature at a normalised value: the open value of this occurrence at 0, else the thermistor function. -/
def temperatureAt (P : NumParams α) (n : α) (k : Nat) : α :=
  if P.num.eq n (P.num.ofInt 0) then P.thermAtZero k else therm P.num n

/-- `temperatureAt` by R117's and R118's literals. -/
theorem temperatureAt_eq (P : NumParams α) (n : α) (k : Nat) : temperatureAt P n k =
    if P.num.eq n (P.num.ofInt 0) then P.thermAtZero k
    else if P.num.gt n (P.num.literal 3.9) then P.num.literal (-40)
    else formulaIn P.num n := rfl

/-- The selected role's normalised value (R116). -/
theorem normOf_selectTemp (f : NumFormat α) {s : State α} {r : Role} (h : selectTemp s.ticks = some r) :
    normOf f s.ticks r = s.tempNormIn f := by
  rcases selectTemp_cases s.ticks with ⟨-, -, hnone⟩ | ⟨hlt, hsome⟩ | ⟨hle, -, hsome⟩
  · rw [hnone] at h; cases h
  · cases hsome.symm.trans h
    rw [normOf_eq, State.tempNormIn, max_eq_right hlt.le]
    rfl
  · cases hsome.symm.trans h
    rw [normOf_eq, State.tempNormIn, max_eq_left hle]
    rfl

/-- A temperature role is selected exactly if one is populated (R116). -/
theorem selectTemp_eq_none_iff (t : Ticks) : selectTemp t = none ↔ t[9] = 0#16 ∧ t[10] = 0#16 := by
  refine ⟨fun h => ?_, fun h => if_pos h⟩
  rcases selectTemp_cases t with ⟨h9, h10, -⟩ | ⟨-, hsome⟩ | ⟨-, -, hsome⟩
  · exact ⟨h9, h10⟩
  · cases hsome.symm.trans h
  · cases hsome.symm.trans h

theorem exists_selectTemp {t : Ticks} (h : ¬(t[9] = 0#16 ∧ t[10] = 0#16)) : ∃ r, selectTemp t = some r :=
  Option.ne_none_iff_exists'.mp fun hnone => h ((selectTemp_eq_none_iff t).mp hnone)

/-- The temperature channel writes `temperatureAt` of the selected role, and only that field. -/
theorem chTemperature_some_reading (P : NumParams α) {s : State α} (h : ¬(s.ticks[9] = 0#16 ∧ s.ticks[10] = 0#16))
    (d : DecodeRun α) : (chTemperature P s.ticks d).reading =
      { d.reading with temperature := some (temperatureAt P (s.tempNormIn P.num) d.free) } := by
  obtain ⟨r, hr⟩ := exists_selectTemp h
  rw [← normOf_selectTemp P.num hr, temperatureAt]
  rcases h0 : P.num.eq (normOf P.num s.ticks r) (P.num.ofInt 0) with _ | _
  · rw [chTemperature_nonzero hr h0]; rfl
  · rw [chTemperature_zero hr h0]; rfl

/-- The temperature channel uses a free value exactly at a normalised value of 0 (R119; log entry 5). -/
theorem chTemperature_some_free (P : NumParams α) {s : State α} (h : ¬(s.ticks[9] = 0#16 ∧ s.ticks[10] = 0#16))
    (d : DecodeRun α) : (chTemperature P s.ticks d).free =
      if P.num.eq (s.tempNormIn P.num) (P.num.ofInt 0) then d.free + 1 else d.free := by
  obtain ⟨r, hr⟩ := exists_selectTemp h
  rw [← normOf_selectTemp P.num hr]
  rcases h0 : P.num.eq (normOf P.num s.ticks r) (P.num.ofInt 0) with _ | _
  · rw [chTemperature_nonzero hr h0]; rfl
  · rw [chTemperature_zero hr h0]; rfl

theorem chTemperature_unpopulated (P : NumParams α) {t : Ticks} (h : t[9] = 0#16 ∧ t[10] = 0#16) (d : DecodeRun α) :
    chTemperature P t d = d := chTemperature_none P ((selectTemp_eq_none_iff t).mpr h) d

/-! ### Temperature in the exact format -/

theorem State.tempNormIn_exact {s : State Num} (h0 : s.ticks[0] ≠ 0#16) :
    s.tempNormIn exactFormat = .rat s.tempNorm := by
  have href : (((s.ticks[0].toNat : ℕ) : ℤ) : ℚ) ≠ 0 := fun q => h0 (BitVec.eq_of_toNat_eq (by simpa using q))
  unfold State.tempNormIn
  rw [exactFormat_ofInt, exactFormat_ofInt, exactFormat_div href, State.tempNorm,
    Nat.cast_sub (min_le_max : min s.ticks[9].toNat s.ticks[10].toNat ≤ _)]
  push_cast
  rfl

/-- A temperature difference other than 0 comes from a populated role. -/
theorem State.populated_of_tempNorm_ne_zero {s : State α} (h : s.tempNorm ≠ 0) :
    ¬(s.ticks[9] = 0#16 ∧ s.ticks[10] = 0#16) := by
  rintro ⟨h9, h10⟩
  exact h (by simp [State.tempNorm, h9, h10])

theorem State.tempNorm_eq_zero_of_tie {s : State α} (h : s.ticks[9] = s.ticks[10]) : s.tempNorm = 0 := by
  simp [State.tempNorm, h]

/-- Away from 0 the exact temperature is the thermistor function's (R117, R118). -/
theorem temperatureAt_exact_ne_zero {n : ℚ} (h : n ≠ 0) (k : Nat) :
    temperatureAt configured (.rat n) k = therm exactFormat (.rat n) := by
  simp [temperatureAt, h]

theorem temperatureAt_exact_zero (k : Nat) : temperatureAt configured (.rat 0) k = Config.thermAtZero k := by
  simp [temperatureAt]

/-- The temperature channel in the exact format where the difference is not 0. -/
theorem chTemperature_exact_ne_zero {s : State Num} (h0 : s.ticks[0] ≠ 0#16) (h : s.tempNorm ≠ 0)
    (d : DecodeRun Num) : (chTemperature configured s.ticks d).reading =
        { d.reading with temperature := some (therm exactFormat (.rat s.tempNorm)) } ∧
      (chTemperature configured s.ticks d).free = d.free := by
  have hpop := State.populated_of_tempNorm_ne_zero h
  rw [chTemperature_some_reading configured hpop, chTemperature_some_free configured hpop, configured_num,
    State.tempNormIn_exact h0, temperatureAt_exact_ne_zero h]
  exact ⟨rfl, by simp [h]⟩

/-- The temperature channel in the exact format at equal populated ticks (R119). -/
theorem chTemperature_exact_tie {s : State Num} (h0 : s.ticks[0] ≠ 0#16) (h : s.ticks[9] = s.ticks[10])
    (h9 : s.ticks[9] ≠ 0#16) (d : DecodeRun Num) : (chTemperature configured s.ticks d).reading =
        { d.reading with temperature := some (Config.thermAtZero d.free) } ∧
      (chTemperature configured s.ticks d).free = d.free + 1 := by
  have hpop : ¬(s.ticks[9] = 0#16 ∧ s.ticks[10] = 0#16) := fun q => h9 q.1
  rw [chTemperature_some_reading configured hpop, chTemperature_some_free configured hpop, configured_num,
    State.tempNormIn_exact h0, State.tempNorm_eq_zero_of_tie h, temperatureAt_exact_zero]
  exact ⟨rfl, by simp⟩

/-- The formula's real value (R118). -/
theorem thermistor_denotes {n : ℚ} (h : n ≤ 39 / 10) (r : ℝ) :
    denotes (thermistor exactFormat (.rat n)) r ↔ formulaAt n r := by
  rw [thermistor, thermArg_exact h]
  simp only [exactFormat, denotes_exactSub, denotes_exactDiv, denotes_exactAdd, denotes_exactLn, denotes_rat,
    exists_and_left, exists_eq_left, formulaAt]
  norm_num [Config.thScale, Config.thNum, Config.thFull, Config.thDen, Config.thBeta, Config.thT0, Config.thZeroC]

end Block

/-! ### The values that `DECODE` writes -/

/-- Settles O24: in any format by the channels' own equations; the exact clause is the configured format's, its quotient the
rational one. -/
theorem decodeWritesLinearChannels : Obligations.DecodeWritesLinearChannels := by
  refine ⟨fun s e h0 => ⟨_, exec_eq_runAt (.decode e) s, ?_⟩, fun α P s e h0 => ⟨_, rfl, ?_⟩⟩ <;>
    rw [Block.runAt_decode_record h0, Block.decodeRunOf, Block.allChannels_voltage, Block.allChannels_rippleVoltage,
      Block.allChannels_current, Block.allChannels_throttle, Block.allChannels_becVoltage,
      Block.allChannels_becCurrent, Block.kVoltage_eq, Block.kRipple_eq, Block.kCurrent_eq, Block.kThrottle_eq,
      Block.kBecVoltage_eq, Block.kBecCurrent_eq]
  · simp only [configured_num, Block.scaled_normOf h0, mul_one]
    exact ⟨rfl, rfl, rfl, rfl, rfl, rfl⟩
  · exact ⟨rfl, rfl, rfl, rfl, rfl, rfl⟩

/-- Settles O25: as O24, with `ROUND` of the exact format pinned by `roundHalfUp_spec`. -/
theorem decodeWritesRoundedChannels : Obligations.DecodeWritesRoundedChannels := by
  refine ⟨fun s e h0 => ⟨_, exec_eq_runAt (.decode e) s, ?_⟩, fun α P s e h0 => ⟨_, rfl, ?_⟩⟩ <;>
    rw [Block.runAt_decode_record h0, Block.decodeRunOf, Block.allChannels_outputPower, Block.allChannels_erpm]
  · rw [configured_num, Block.powerOf_normOf h0, Block.rpmOf_normOf h0]
    obtain ⟨hplow, hphigh⟩ := Block.roundHalfUp_spec (s.normalized 5 * (1251 / 50))
    obtain ⟨hrlow, hrhigh⟩ := Block.roundHalfUp_spec (s.normalized 6 * (204167 / 10))
    exact ⟨fun h => if_pos h, fun h => ⟨_, if_neg h, hplow, hphigh⟩, fun h => if_pos h,
      fun h => ⟨_, if_neg h, hrlow, hrhigh⟩⟩
  · exact ⟨rfl, rfl⟩

/-- Settles O26: the temperature channel is the last one, and the channels before it leave the temperature and the count of
free values alone. -/
theorem decodeWritesTemperature : Obligations.DecodeWritesTemperature := by
  refine ⟨fun s e h0 => ⟨_, exec_eq_runAt (.decode e) s, ?_⟩, fun α P s e h0 => ⟨_, rfl, ?_⟩⟩
  · rw [Block.runAt_decode_record h0, Block.runAt_decode_free h0, Block.decodeRunOf, Block.allChannels]
    refine ⟨fun h9 h10 => ?_, fun h => ?_, fun hpos hle => ?_, fun htie h9 => ?_⟩
    · rw [Block.chTemperature_unpopulated _ ⟨h9, h10⟩, Block.eightChannels_temperature, Block.eightChannels_free]
      exact ⟨rfl, rfl⟩
    · obtain ⟨hreading, hfree⟩ := Block.chTemperature_exact_ne_zero h0 (by linarith : s.tempNorm ≠ 0) _
      rw [hreading, hfree, Block.eightChannels_free, therm_saturated h]
      exact ⟨rfl, rfl⟩
    · obtain ⟨hreading, hfree⟩ := Block.chTemperature_exact_ne_zero h0 hpos.ne' _
      rw [hreading, hfree, Block.eightChannels_free, therm_formula hle]
      exact ⟨_, rfl, Block.thermistor_denotes hle, rfl⟩
    · obtain ⟨hreading, hfree⟩ := Block.chTemperature_exact_tie h0 htie h9 _
      rw [hreading, hfree, Block.eightChannels_free]
      exact ⟨rfl, rfl⟩
  · rw [Block.runAt_decode_record h0, Block.decodeRunOf, Block.allChannels]
    refine ⟨fun h9 h10 => ?_, fun hpop => ?_⟩
    · rw [Block.chTemperature_unpopulated _ ⟨h9, h10⟩, Block.eightChannels_temperature]
    · rw [Block.chTemperature_some_reading P hpop, Block.eightChannels_free, Block.temperatureAt_eq]

/-- Settles O29: the temperature row by its four cases; at a tie it uses a free value. -/
theorem temperatureChannelRow : Obligations.TemperatureChannelRow := by
  intro s e h0
  have hwrote := fun r => Block.decodeRow_wrote (ch := Block.chTemperature configured) h0 e (r := r)
    (Block.chTemperature_flagExact s.ticks)
  refine ⟨fun h9 h10 => congrArg _ (hwrote _ ?_ ?_), fun h => congrArg _ (hwrote _ ?_ ?_),
    fun hpos hle => ⟨_, Block.thermistor_denotes hle, congrArg _ (hwrote _ ?_ ?_)⟩, fun htie h9 => ?_⟩
  · rw [Block.chTemperature_unpopulated _ ⟨h9, h10⟩]
  · rw [Block.chTemperature_unpopulated _ ⟨h9, h10⟩]
  · rw [(Block.chTemperature_exact_ne_zero h0 (by linarith : s.tempNorm ≠ 0) _).1, therm_saturated h]
  · exact (Block.chTemperature_exact_ne_zero h0 (by linarith : s.tempNorm ≠ 0) _).2
  · rw [(Block.chTemperature_exact_ne_zero h0 hpos.ne' _).1, therm_formula hle]
  · exact (Block.chTemperature_exact_ne_zero h0 hpos.ne' _).2
  · obtain ⟨hreading, hfree⟩ := Block.chTemperature_exact_tie h0 htie h9 ⟨s.record e, false, s.free⟩
    exact congrArg Host.Outcome.next <| Block.decodeRow_wrote_withFree h0 e (Block.chTemperature_flagExact s.ticks) hreading hfree

/-! ### A second decode of the same frame (R120) -/

namespace Block

theorem State.tempNorm_ne_zero {α : Type} {s : State α} (h0 : s.ticks[0] ≠ 0#16) (h : s.ticks[9] ≠ s.ticks[10]) :
    s.tempNorm ≠ 0 := by
  have href : s.ticks[0].toNat ≠ 0 := fun q => h0 (BitVec.eq_of_toNat_eq q)
  have hdiff : s.ticks[9].toNat ≠ s.ticks[10].toNat := fun q => h (BitVec.eq_of_toNat_eq q)
  refine div_ne_zero ?_ (Nat.cast_ne_zero.mpr href)
  rw [Nat.cast_ne_zero]
  omega

/-- Without a tie of populated temperature ticks the temperature channel does not look at the decode in progress, and uses
no free value (R116 to R119). -/
theorem chTemperature_exact_no_tie {s : State Num} (h0 : s.ticks[0] ≠ 0#16)
    (htie : ¬(s.ticks[9] = s.ticks[10] ∧ s.ticks[9] ≠ 0#16)) :
    (∀ d, chTemperature configured s.ticks d = d) ∨
    ∃ v, ∀ d, (chTemperature configured s.ticks d).reading = { d.reading with temperature := some v } ∧
      (chTemperature configured s.ticks d).free = d.free := by
  by_cases h : s.ticks[9] = s.ticks[10]
  · have h9 : s.ticks[9] = 0#16 := not_not.mp fun q => htie ⟨h, q⟩
    exact .inl (chTemperature_unpopulated configured ⟨h9, h ▸ h9⟩)
  · exact .inr ⟨_, chTemperature_exact_ne_zero h0 (State.tempNorm_ne_zero h0 h)⟩

theorem allChannels_free_no_tie {s : State Num} (h0 : s.ticks[0] ≠ 0#16)
    (htie : ¬(s.ticks[9] = s.ticks[10] ∧ s.ticks[9] ≠ 0#16)) (d : DecodeRun Num) :
    (allChannels configured s.ticks d).free = d.free := by
  rw [allChannels]
  rcases chTemperature_exact_no_tie h0 htie with h | ⟨v, h⟩
  · rw [h, eightChannels_free]
  · rw [(h _).2, eightChannels_free]

/-- Decoding the same ticks into a record already decoded from them gives that record again: each field is left, or written
with the value that it has. -/
theorem allChannels_reading_idempotent {s : State Num} (h0 : s.ticks[0] ≠ 0#16)
    (htie : ¬(s.ticks[9] = s.ticks[10] ∧ s.ticks[9] ≠ 0#16)) (d : DecodeRun Num) (c : Bool) (k : ℕ) :
    (allChannels configured s.ticks ⟨(allChannels configured s.ticks d).reading, c, k⟩).reading =
      (allChannels configured s.ticks d).reading := by
  apply Reading.ext
  case voltage => simp only [allChannels_voltage]; split <;> rfl
  case rippleVoltage => simp only [allChannels_rippleVoltage]; split <;> rfl
  case current => simp only [allChannels_current]; split <;> rfl
  case throttle => simp only [allChannels_throttle]; split <;> rfl
  case outputPower => simp only [allChannels_outputPower]; split <;> rfl
  case erpm => simp only [allChannels_erpm]; split <;> rfl
  case becVoltage => simp only [allChannels_becVoltage]; split <;> rfl
  case becCurrent => simp only [allChannels_becCurrent]; split <;> rfl
  case poles => exact allChannels_poles configured _ _
  case temperature =>
    simp only [allChannels]
    rcases chTemperature_exact_no_tie h0 htie with h | ⟨v, h⟩
    · rw [h, eightChannels_temperature]
    · rw [(h _).1, (h _).1]

/-- Writing back what is there changes nothing. -/
theorem State.wroteBack_self {α : Type} {s : State α} {e : RecIdx} {d : DecodeRun α} (hreading : d.reading = s.record e)
    (hfree : d.free = s.free) : s.wroteBack e d = s := by
  rw [State.wroteBack, hreading, hfree]
  simp [State.setRecord, State.record, State.withFree]

end Block

/-- Settles O31: the second decode writes the record that the first one left, so its flag is false. -/
theorem secondDecodeChangesNothing : Obligations.SecondDecodeChangesNothing := by
  intro s e h0 htie
  refine ⟨_, congrArg Host.Outcome.next (Block.runDecode_eq h0 configured e), ?_⟩
  set d := Block.decodeRunOf configured e s
  set t := (s.wroteBack e d).deliver { decoded := some (.ok d.changed) }
  have hrecord : t.record e = d.reading := Block.State.setRecord_record_same e d.reading s
  have hagain : Block.decodeRunOf configured e t =
      Block.allChannels configured s.ticks ⟨d.reading, false, d.free⟩ := by
    rw [← hrecord]
    rfl
  have hreading : (Block.decodeRunOf configured e t).reading = t.record e := by
    rw [hagain, hrecord]
    exact Block.allChannels_reading_idempotent h0 htie _ _ _
  have hfree : (Block.decodeRunOf configured e t).free = t.free := by
    rw [hagain, Block.allChannels_free_no_tie h0 htie]
    rfl
  have hchanged : (Block.decodeRunOf configured e t).changed = false :=
    Bool.eq_false_iff.mpr fun q => (Block.allChannels_flagExact t.ticks _ rfl).mp q hreading
  refine congrArg Host.Outcome.next ((Block.runDecode_eq (s := t) h0 configured e).trans ?_)
  rw [Block.State.wroteBack_self hreading hfree, hchanged]
  rfl

/-! ### What a decode looks at (R102) -/

namespace Block

variable {α : Type}

/-- A decode in progress with another pole count in its record. -/
def DecodeRun.withPoles (p : Byte) (d : DecodeRun α) : DecodeRun α :=
  { d with reading := { d.reading with poles := p } }

/-- A continuation of a decode that does not look at the pole count. -/
def IgnoresPoles (c : DecodeRun α → DecodeRun α) : Prop := ∀ p d, c (d.withPoles p) = (c d).withPoles p

theorem chVoltage_ignoresPoles (f : NumFormat α) (t : Ticks) : IgnoresPoles (chVoltage f t) := by
  intro p d; unfold chVoltage; split <;> rfl
theorem chRippleVoltage_ignoresPoles (f : NumFormat α) (t : Ticks) : IgnoresPoles (chRippleVoltage f t) := by
  intro p d; unfold chRippleVoltage; split <;> rfl
theorem chCurrent_ignoresPoles (f : NumFormat α) (t : Ticks) : IgnoresPoles (chCurrent f t) := by
  intro p d; unfold chCurrent; split <;> rfl
theorem chThrottle_ignoresPoles (f : NumFormat α) (t : Ticks) : IgnoresPoles (chThrottle f t) := by
  intro p d; unfold chThrottle; split <;> rfl
theorem chOutputPower_ignoresPoles (f : NumFormat α) (t : Ticks) : IgnoresPoles (chOutputPower f t) := by
  intro p d; unfold chOutputPower; split <;> rfl
theorem chRpm_ignoresPoles (f : NumFormat α) (t : Ticks) : IgnoresPoles (chRpm f t) := by
  intro p d; unfold chRpm; split <;> rfl
theorem chBecVoltage_ignoresPoles (f : NumFormat α) (t : Ticks) : IgnoresPoles (chBecVoltage f t) := by
  intro p d; unfold chBecVoltage; split <;> rfl
theorem chBecCurrent_ignoresPoles (f : NumFormat α) (t : Ticks) : IgnoresPoles (chBecCurrent f t) := by
  intro p d; unfold chBecCurrent; split <;> rfl
theorem chTemperature_ignoresPoles (P : NumParams α) (t : Ticks) : IgnoresPoles (chTemperature P t) := by
  intro p d; unfold chTemperature; split
  · rfl
  · split <;> rfl

/-- "The decoder never reads `POLES`" (R23, R102). -/
theorem allChannels_ignoresPoles (P : NumParams α) (t : Ticks) : IgnoresPoles (allChannels P t) := by
  intro p d
  simp only [allChannels, eightChannels]
  rw [chVoltage_ignoresPoles, chRippleVoltage_ignoresPoles, chCurrent_ignoresPoles, chThrottle_ignoresPoles,
    chOutputPower_ignoresPoles, chRpm_ignoresPoles, chBecVoltage_ignoresPoles, chBecCurrent_ignoresPoles,
    chTemperature_ignoresPoles]

end Block

/-- Settles O32: without a reference neither state changes, and with one both run the same channels on records that differ
in the pole count alone. -/
theorem decodeReadsTicksAndRecordOnly : Obligations.DecodeReadsTicksAndRecordOnly := by
  intro s s' e p hticks hfree hrecord
  refine ⟨_, _, exec_eq_runAt (.decode e) s, exec_eq_runAt (.decode e) s', ?_⟩
  simp only [Block.runAt, Block.runDecode]
  by_cases h0 : tickAt s.ticks .reference = 0#16
  · rw [Block.decodeRow_noReference h0, Block.decodeRow_noReference (s := s') (hticks ▸ h0)]
    exact ⟨rfl, hrecord⟩
  · have hrun : Block.allChannels configured s.ticks ⟨s'.record e, false, s.free⟩ =
        (Block.allChannels configured s.ticks ⟨s.record e, false, s.free⟩).withPoles p := by
      rw [← Block.allChannels_ignoresPoles, hrecord]
      rfl
    rw [Block.decodeRow_ok h0, Block.decodeRow_ok (s := s') (hticks ▸ h0), hticks, hfree, hrun]
    refine ⟨rfl, ?_⟩
    simp only [Block.State.deliver_record, Block.State.withFree_record, Block.State.setRecord_record_same]
    rfl

/-! ### Thermistor values compare exactly (log entry 4) -/

/-- The argument of the logarithm over the reals (R118). -/
noncomputable def thermArgAt (n : ℝ) : ℝ := n * 63.8125 * 10200 / (255 - n * 63.8125) / 10000

/-- "`255 - d > 0`" up to the threshold, so the argument is positive (R119). -/
theorem thermArgAt_pos {n : ℝ} (h : 0 < n) (h' : n ≤ 39 / 10) : 0 < thermArgAt n := by
  have hden : 0 < 255 - n * 63.8125 := by linarith
  unfold thermArgAt
  positivity

theorem thermArgAt_injective {m n : ℝ} (hm : m ≤ 39 / 10) (hn : n ≤ 39 / 10) (h : thermArgAt m = thermArgAt n) :
    m = n := by
  have hdm : 255 - m * 63.8125 ≠ 0 := by linarith
  have hdn : 255 - n * 63.8125 ≠ 0 := by linarith
  unfold thermArgAt at h
  rw [div_left_inj' (by norm_num), div_eq_div_iff hdm hdn] at h
  linarith

/-- The formula is injective above 0 and up to the threshold: quotient, logarithm and argument each are. -/
theorem formulaAt_injective {m n : ℚ} (hm : 0 < m) (hm' : m ≤ 39 / 10) (hn : 0 < n) (hn' : n ≤ 39 / 10) {r : ℝ}
    (hrm : formulaAt m r) (hrn : formulaAt n r) : m = n := by
  have real_le : ∀ {q : ℚ}, q ≤ 39 / 10 → (q : ℝ) ≤ 39 / 10 := fun {q} h => by
    simpa using (Rat.cast_le (K := ℝ)).mpr h
  have hquotient : Real.log (thermArgAt m) / 3455 + 1 / 298.15 = Real.log (thermArgAt n) / 3455 + 1 / 298.15 := by
    have h := sub_left_inj.mp (hrm.symm.trans hrn)
    exact inv_injective ((one_div _).symm.trans (h.trans (one_div _)))
  have hlog : Real.log (thermArgAt m) = Real.log (thermArgAt n) := by linarith
  have harg : thermArgAt m = thermArgAt n :=
    Real.log_injOn_pos (thermArgAt_pos (by exact_mod_cast hm) (real_le hm'))
      (thermArgAt_pos (by exact_mod_cast hn) (real_le hn')) hlog
  exact_mod_cast thermArgAt_injective (real_le hm') (real_le hn') harg

/-- Settles O33: up to the threshold both values are the formula's. -/
theorem thermistorValuesCompareExactly : Obligations.ThermistorValuesCompareExactly := by
  intro m n hm hm' hn hn' r hrm hrn
  rw [therm_formula hm', Block.thermistor_denotes hm'] at hrm
  rw [therm_formula hn', Block.thermistor_denotes hn'] at hrn
  exact formulaAt_injective hm hm' hn hn' hrm hrn

end Sys2Proof.Machine

/-! PROOFS. The host operations and the read ports (R131 to R134, R160). -/

namespace Sys2Proof.Machine

/-! ### The operands of the host operations (R131, R132) -/

/-- `TABLE_RESET(n)` is refused for any other integer than 1 and 2 (R131). -/
theorem countOf_eq_none {n : ℤ} (h1 : n ≠ 1) (h2 : n ≠ 2) : countOf n = none := by
  rw [countOf, if_neg h1, if_neg h2]

theorem poleTarget_eq_some {e : RecIdx} {p : Byte} {n : EscCount} (hlt : e.val < n.val) (heven : p.toNat % 2 = 0)
    (htwo : 2 ≤ p.toNat) : poleTarget e.val p n = some e := dif_pos ⟨hlt, heven, htwo⟩

/-- `SET_POLES` is refused for a record not in use, an odd count and a count of 0 (R132). -/
theorem poleTarget_eq_none {e : ℕ} {p : Byte} {n : EscCount} (h : n.val ≤ e ∨ p.toNat % 2 = 1 ∨ p = 0#8) :
    poleTarget e p n = none := by
  refine dif_neg fun ⟨hlt, heven, htwo⟩ => ?_
  rcases h with h | h | rfl
  · omega
  · omega
  · exact absurd htwo (by decide)

/-- Settles O34: `countOf` is 1, 2 or none. -/
theorem tableResetClearsOrRefuses : Obligations.TableResetClearsOrRefuses := by
  refine fun s => ⟨rfl, rfl, fun n h1 h2 => ?_⟩
  rw [exec_eq_runAt, Block.runAt, Block.runTableReset, countOf_eq_none h1 h2]
  rfl

/-- Settles O35: `poleTarget` is the record in use, or none. -/
theorem setPolesWritesOrRefuses : Obligations.SetPolesWritesOrRefuses := by
  refine fun s p => ⟨fun e hlt heven htwo => ?_, fun e h => ?_⟩
  · rw [exec_eq_runAt, Block.runAt, Block.runSetPoles, poleTarget_eq_some hlt heven htwo]
    rfl
  · rw [exec_eq_runAt, Block.runAt, Block.runSetPoles, poleTarget_eq_none h]
    rfl

/-- Settles O36: `RESET` writes `State.initial`, whose elements are R30's values. -/
theorem resetWritesEveryElement : Obligations.ResetWritesEveryElement := by
  refine ⟨fun s => rfl, rfl, rfl, rfl, rfl, rfl, rfl, rfl, fun i => ?_, rfl, rfl, Block.State.initial_record⟩
  simp [State.reset]

/-! ### The read ports (R133, R134) -/

/-- A read whose port shows a value of its own changes nothing. -/
theorem exec_read_of_value {s : State} {p : Port} {v : Block.PortValue Num}
    (h : Block.portValue configured s p = (v, 0)) : exec (.read p) s = .next { s with out := [{ port := some v }] } := by
  rw [exec_eq_runAt, Block.runAt, Block.runRead, h]
  rfl

/-- A read whose port has no value of its own uses one free value (R133, U2; log entry 5). -/
theorem exec_read_of_free {s : State} {p : Port} {v : Block.PortValue Num}
    (h : Block.portValue configured s p = (v, 1)) :
    exec (.read p) s = .next { s with out := [{ port := some v }], free := s.free + 1 } := by
  rw [exec_eq_runAt, Block.runAt, Block.runRead, h]
  rfl

/-- Settles O37: control ports and written bits have values of their own. -/
theorem readOfControlPorts : Obligations.ReadOfControlPorts := by
  refine fun s => ⟨exec_read_of_value rfl, exec_read_of_value rfl, fun e => ⟨exec_read_of_value rfl, fun f w => ?_⟩⟩
  have hread : exec (.read (.written e f)) s =
      .next { s with out := [{ port := some (.bit (writtenBit (s.record e) f)) }] } := exec_read_of_value rfl
  rw [hread]
  refine Iff.trans ⟨fun h => ?_, fun h => by rw [h]⟩ (by cases f <;> exact Iff.rfl : w = writtenBit (s.record e) f ↔ _)
  simpa [eq_comm] using congrArg Block.State.out (Host.Outcome.next.inj h)

/-- The port of an unwritten field shows a free value (R133). -/
theorem fieldValue_unwritten {α : Type} (P : NumParams α) {r : Block.Reading α} {f : Field}
    (h : writtenBit r f = false) (k : ℕ) : ∃ v, Block.fieldValue P r k f = (v, 1) := by
  have hshown : ∀ {β : Type} (sh : β → Block.PortValue α) (o : β) {x : Option β}, x.isSome = false →
      ∃ v, Block.shown sh o x = (v, 1) := by
    rintro β sh o (_ | x) hx
    · exact ⟨_, rfl⟩
    · cases hx
  cases f <;> exact hshown _ _ h

/-- Settles O38: a written field shows its value, an unwritten one a free value. -/
theorem readOfFields : Obligations.ReadOfFields := by
  have hvalue : ∀ {s : State} {e : RecIdx} {f : Field} {v : Block.PortValue Num},
      Block.fieldValue configured (s.record e) s.free f = (v, 0) →
      exec (.read (.field e f)) s = .next { s with out := [{ port := some v }] } := fun h => exec_read_of_value h
  intro s e
  refine ⟨fun v h => hvalue ?_, fun v h => hvalue ?_, fun v h => hvalue ?_, fun v h => hvalue ?_,
    fun v h => hvalue ?_, fun v h => hvalue ?_, fun v h => hvalue ?_, fun v h => hvalue ?_, fun v h => hvalue ?_,
    fun f h => ?_⟩
  case refine_10 =>
    obtain ⟨v, hv⟩ := fieldValue_unwritten configured h s.free
    exact ⟨v, exec_read_of_free hv⟩
  all_goals rw [Block.fieldValue, h, Block.shown]

/-- Settles O39: half of a legal pole count is not 0, so the exact quotient is a rational number. -/
theorem shaftRpmDerivedAtRead : Obligations.ShaftRpmDerivedAtRead := by
  intro s e heven htwo
  refine ⟨fun z hz => exec_read_of_value ?_, fun hnone => ⟨Config.unwrittenNum s.free, exec_read_of_free ?_⟩⟩
  · have hhalf : (s.record e).poles.toNat / 2 ≠ 0 := by omega
    have hhalf' : (((s.record e).poles.toNat / 2 : ℕ) : ℚ) ≠ 0 := Nat.cast_ne_zero.mpr hhalf
    rw [Block.portValue, Block.shaftRpm, hz]
    simp only [if_neg hhalf, Block.shown, configured_num, exactFormat_ofInt, Int.cast_natCast,
      exactFormat_div hhalf']
  · rw [Block.portValue, Block.shaftRpm, hnone]
    rfl

end Sys2Proof.Machine

/-! PROOFS. Whole frames (section 6 of 40_frame_parser.md) and byte arrays (R41, R135): a frame row is a run of `BYTE` steps,
followed step by step. -/

namespace Sys2Proof.Machine

namespace Block

/-! ### Runs of steps that deliver nothing -/

/-- A byte on which `feed` reports nothing, at the head of a run. -/
theorem byteSteps_quiet {b : Byte} {s : Machine.State} {u : Machine.State × ParserResult} (h : feed b s = u)
    (hquiet : u.2 = .pNone) (bs : List Byte) : byteSteps configured (b :: bs) s =
      (byteSteps configured bs u.1).withOut (Output.quiet :: (byteSteps configured bs u.1).out) := by
  have hbyte : byteStep configured b s = u.1.deliver Output.quiet := by
    rw [byteStep, h, hquiet]
    rfl
  rw [byteSteps_cons, hbyte, State.deliver_eq, byteSteps_withOut]
  rfl

theorem byteSteps_singleton {α : Type} (P : NumParams α) (b : Byte) (s : State α) :
    byteSteps P [b] s = byteStep P b s := by
  simp [byteSteps_cons]

/-- A data byte inside a frame (R86, R87). -/
theorem feed_data {α : Type} {s : State α} (hlow : 2 ≤ s.cnt) (hhigh : s.cnt ≤ 23) (b : Byte) :
    ∃ u, feed b s = (u, .pNone) ∧ u.cnt = s.cnt + 1 ∧
      u = { s with cnt := u.cnt, hi := u.hi, ck := u.ck, ticks := u.ticks } := by
  rcases Nat.mod_two_eq_zero_or_one s.cnt with heven | hodd
  · exact ⟨_, feed_at_even hlow (by omega) heven b, rfl, rfl⟩
  · exact ⟨_, feed_at_odd (by omega) hhigh hodd b, rfl, rfl⟩

/-! ### The ticks of a frame (R86, R87) -/

/-- The state after the two bytes of a tick: the tick stored at the pair's position (R86, R87). -/
def State.storePair {α : Type} (s : State α) (v : Tick) : State α :=
  { s.setTick ((s.cnt - 2) / 2) v with hi := tickHi v, ck := s.ck ^^^ tickHi v ^^^ tickLo v, cnt := s.cnt + 2 }

theorem byteSteps_pair {s : Machine.State} (hlow : 2 ≤ s.cnt) (hhigh : s.cnt ≤ 22) (heven : s.cnt % 2 = 0) (v : Tick)
    (bs : List Byte) : byteSteps configured (tickHi v :: tickLo v :: bs) s =
      (byteSteps configured bs (s.storePair v)).withOut
        (Output.quiet :: Output.quiet :: (byteSteps configured bs (s.storePair v)).out) := by
  have hpair : (dataLo (tickLo v) (dataHi (tickHi v) s).1).1 = s.storePair v := by
    simp only [dataLo, dataHi, State.setTick, State.storePair, tickOf_tickHi_tickLo, ckNext,
      show (s.cnt + 1 - 3) / 2 = (s.cnt - 2) / 2 by omega]
  have hlo : feed (tickLo v) (dataHi (tickHi v) s).1 = (s.storePair v, .pNone) := by
    rw [← hpair]
    exact feed_at_odd (s := (dataHi (tickHi v) s).1) (by simp only [dataHi]; omega) (by simp only [dataHi]; omega)
      (by simp only [dataHi]; omega) _
  rw [byteSteps_quiet (feed_at_even hlow hhigh heven _) rfl, byteSteps_quiet hlo rfl]
  rfl

theorem byteSteps_pairs (l : List Tick) {s : Machine.State} (hlow : 2 ≤ s.cnt) (hhigh : s.cnt + 2 * l.length ≤ 24)
    (heven : s.cnt % 2 = 0) (bs : List Byte) :
    byteSteps configured ((l.flatMap fun t => [tickHi t, tickLo t]) ++ bs) s =
      (byteSteps configured bs (l.foldl State.storePair s)).withOut
        (List.replicate (2 * l.length) Output.quiet ++ (byteSteps configured bs (l.foldl State.storePair s)).out) := by
  induction l generalizing s with
  | nil => rfl
  | cons v l ih =>
    simp only [List.length_cons] at hhigh
    have hcnt : (s.storePair v).cnt = s.cnt + 2 := rfl
    have htail := ih (s := s.storePair v) (by omega) (by omega) (by omega)
    simp only [List.flatMap_cons, List.cons_append, List.nil_append, List.foldl_cons, List.length_cons]
    rw [byteSteps_pair hlow (by omega) heven, htail, show 2 * (l.length + 1) = 2 * l.length + 1 + 1 from rfl]
    rfl

/-- Ticks stored one after another from a position on. -/
def storeTicks : List Tick → Nat → Ticks → Ticks
  | [], _, t => t
  | v :: l, i, t => storeTicks l (i + 1) (t.setIfInBounds i v)

/-- A run of stored ticks replaces what stood there. -/
theorem storeTicks_toList (l : List Tick) {pre old : List Tick} {t : Ticks} (ht : t.toList = pre ++ old)
    (hlen : old.length = l.length) : (storeTicks l pre.length t).toList = pre ++ l := by
  induction l generalizing pre old t with
  | nil => rw [storeTicks, ht, List.length_eq_zero_iff.mp hlen]
  | cons v l ih =>
    match old, hlen with
    | o :: old, hlen =>
      have hset : (t.setIfInBounds pre.length v).toList = (pre ++ [v]) ++ old := by
        simp [ht]
      have htail := ih hset (by simpa using hlen)
      rw [storeTicks]
      simpa using htail

/-- Eleven stored ticks are the whole tick file. -/
theorem storeTicks_all (ticks t : Ticks) : storeTicks ticks.toList 0 t = ticks :=
  Vector.toList_inj.mp (storeTicks_toList ticks.toList (pre := []) rfl (by simp))

/-- What a run of pairs leaves in the parser group (R86, R87). -/
theorem foldl_storePair {α : Type} (l : List Tick) (s : State α) (i : Nat) (hcnt : s.cnt = 2 * i + 2) :
    l.foldl State.storePair s =
      { s with
        cnt := s.cnt + 2 * l.length, hi := (l.getLast?.map tickHi).getD s.hi,
        ck := s.ck ^^^ xorAll (l.flatMap fun t => [tickHi t, tickLo t]), ticks := storeTicks l i s.ticks } := by
  induction l generalizing s i with
  | nil => simp [storeTicks]
  | cons v l ih =>
    have hhi : (Option.map tickHi l.getLast?).getD (tickHi v) = tickHi (l.getLast?.getD v) := by
      cases l.getLast? <;> rfl
    rw [List.foldl_cons, ih (s.storePair v) (i + 1) (by simp only [State.storePair]; omega)]
    simp only [State.storePair, State.setTick, storeTicks, hcnt, show (2 * i + 2 - 2) / 2 = i by omega,
      List.length_cons, List.flatMap_cons, List.cons_append, List.nil_append, xorAll_cons, BitVec.xor_assoc,
      List.getLast?_cons, Option.map_some, Option.getD_some, hhi,
      show 2 * i + 2 + 2 + 2 * l.length = 2 * i + 2 + 2 * (l.length + 1) by omega]

/-! ### The three kinds of frame -/

/-- The parser at the checksum byte of a telemetry frame. -/
def State.atChecksum {α : Type} (s : State α) (tp : Bool) (esc : EscId) (ticks : Ticks) : State α :=
  { s with cnt := 24, hi := BitVec.ofNat 8 (ticks[10].toNat / 256), ck := xorAll (coveredBytes tp esc ticks),
           kind := .telemetry, escId := esc, tp := tp, ticks := ticks }

/-- The two header bytes of a telemetry frame, then its ticks (R81, R83, R86, R87). -/
theorem byteSteps_telemetryBytes {s : Machine.State} (hcnt : s.cnt = 0) (tp : Bool) (esc : EscId) (ticks : Ticks)
    (ck : Byte) : byteSteps configured (telemetryBytes tp esc ticks ck) s =
      (byteStep configured ck (s.atChecksum tp esc ticks)).withOut
        (List.replicate 24 Output.quiet ++ (byteStep configured ck (s.atChecksum tp esc ticks)).out) := by
  have hhead := feed_at_zero hcnt 0xFF#8
  have hlow := feed_telemetryHeader (s := (hdrHi 0xFF#8 s).1) rfl (isTelemetryHeader_telemetryLow tp esc)
  have hticks : ticks.toList.foldl State.storePair (hdrLoTelemetry (telemetryLow tp esc) (hdrHi 0xFF#8 s).1).1 =
      s.atChecksum tp esc ticks := by
    have hlast : ticks.toList.getLast? = some ticks[10] := by simp [List.getLast?_eq_getElem?]
    rw [foldl_storePair _ _ 0 rfl, storeTicks_all, hlast]
    simp [hdrLoTelemetry, hdrHi, ckNext, ckSeed, State.atChecksum, coveredBytes, tickBytes, xorAll_cons,
      BitVec.xor_assoc]
    rfl
  have hbytes : telemetryBytes tp esc ticks ck =
      0xFF#8 :: telemetryLow tp esc :: ((ticks.toList.flatMap fun t => [tickHi t, tickLo t]) ++ [ck]) := rfl
  rw [hbytes, byteSteps_quiet hhead rfl, byteSteps_quiet hlow rfl, byteSteps_pairs _ (le_refl 2) (by simp [hdrLoTelemetry])
      (show 2 % 2 = 0 from rfl),
    hticks, byteSteps_singleton, Vector.length_toList,
    show List.replicate 24 Output.quiet = Output.quiet :: Output.quiet :: List.replicate (2 * 11) Output.quiet from rfl]
  simp only [State.withOut_out, State.withOut_withOut, List.cons_append]

/-- The parser's outcomes on a response header after its first byte (R81, R84). -/
theorem byteSteps_responseBytes {s : Machine.State} (hcnt : s.cnt = 0) (r : Bool) :
    byteSteps configured (responseBytes r) s =
      { s with hi := 0x55#8, ck := 0x55#8, kind := .response, resp := r, cnt := 0,
               out := [Output.quiet,
                       { parser := some (.pResponse r), result := some (.response r), events := [.response r] }] } := by
  have hlow : byteStep configured (responseLow r) (hdrHi 0x55#8 s).1 =
      actOn configured (.pResponse (respField (responseLow r))) (hdrLoResponse (responseLow r) (hdrHi 0x55#8 s).1).1 := by
    rw [byteStep, feed_responseHeader (s := (hdrHi 0x55#8 s).1) rfl (isTelemetryHeader_responseLow r)
      (isResponseHeader_responseLow r)]
    rfl
  rw [responseBytes, byteSteps_quiet (feed_at_zero hcnt _) rfl, byteSteps_singleton, hlow, respField_responseLow]
  simp only [hdrLoResponse, respField_responseLow]
  rfl

theorem byteSteps_failedPair {s : Machine.State} (hcnt : s.cnt = 0) {h l : Byte}
    (ht : isTelemetryHeader h l = false) (hr : isResponseHeader h l = false) :
    byteSteps configured [h, l] s = s.clearFrame.withOut [Output.quiet, Output.quiet] := by
  rw [byteSteps_quiet (feed_at_zero hcnt h) rfl,
    byteSteps_quiet (feed_failedPair (s := (hdrHi h s).1) rfl ht hr) rfl]
  rfl

end Block

/-- Settles O40: the run of the frame's 25 bytes, the last of which is the checksum step. -/
theorem telemetryFrameAsAWhole : Obligations.TelemetryFrameAsAWhole := by
  intro s tp esc ticks ck hcnt
  exact ⟨_, exec_ingest ck (s.atChecksum tp esc ticks),
    congrArg Host.Outcome.next (Block.byteSteps_telemetryBytes hcnt tp esc ticks ck)⟩

/-- Settles O41: a held first byte, then a response header. -/
theorem responseFrameAsAWhole : Obligations.ResponseFrameAsAWhole :=
  fun _ r hcnt => congrArg Host.Outcome.next (Block.byteSteps_responseBytes hcnt r)

/-- Settles O42: a held first byte, then the framing outcome. -/
theorem failedPairAsAWhole : Obligations.FailedPairAsAWhole := by
  intro s h l hcnt hwf
  obtain ⟨ht, hr⟩ := wellFormed_framingError.mp hwf
  exact congrArg Host.Outcome.next (Block.byteSteps_failedPair hcnt ht hr)

/-- Settles O46: both bytes are data bytes, each one position on. -/
theorem responseInsideFrameIsData : Obligations.ResponseInsideFrameIsData := by
  intro s r hlow hhigh
  obtain ⟨u, hu, hucnt, huframe⟩ := Block.feed_data hlow (by omega) 0x55#8
  obtain ⟨v, hv, hvcnt, hvframe⟩ := Block.feed_data (s := u) (by omega) (by omega) (responseLow r)
  have hrun : Block.byteSteps configured (responseBytes r) s = v.withOut [Output.quiet, Output.quiet] := by
    rw [responseBytes, Block.byteSteps_quiet hu rfl, Block.byteSteps_quiet hv rfl]
    rfl
  refine ⟨v.withOut [Output.quiet, Output.quiet], congrArg Host.Outcome.next hrun, ?_, rfl, ?_⟩
  · rw [Block.State.withOut_cnt, hvcnt, hucnt]
  · rw [hvframe, huframe]
    rfl

/-! ### A corrupted byte (R94) -/

/-- The XOR of a run in which one byte is replaced. -/
theorem xorAll_set (l : List Byte) {k : ℕ} (h : k < l.length) (v : Byte) :
    xorAll (l.set k v) = xorAll l ^^^ l[k] ^^^ v := by
  induction l generalizing k with
  | nil => exact absurd h (by simp)
  | cons b l ih =>
    cases k with
    | zero =>
      simp only [List.set_cons_zero, xorAll_cons, List.getElem_cons_zero]
      rw [BitVec.xor_comm b, BitVec.xor_assoc (xorAll l), BitVec.xor_self, BitVec.xor_zero, BitVec.xor_comm]
    | succ k =>
      simp only [List.set_cons_succ, xorAll_cons, List.getElem_cons_succ, ih (by simpa using h), BitVec.xor_assoc]

/-- A frame's checksum byte is right exactly if the XOR of all its bytes is 0 (R66). -/
theorem xorAll_telemetryBytes (tp : Bool) (esc : EscId) (ticks : Ticks) (ck : Byte) :
    xorAll (telemetryBytes tp esc ticks ck) = 0#8 ↔ ck = xorAll (coveredBytes tp esc ticks) := by
  rw [telemetryBytes, xorAll_append, xorAll_singleton, BitVec.xor_eq_zero_iff, eq_comm]

/-- A run of bytes whose XOR stays 0 when one byte is replaced is the same run. -/
theorem set_eq_of_xorAll_eq {l : List Byte} {k : ℕ} (h : k < l.length) {v : Byte}
    (hxor : xorAll (l.set k v) = xorAll l) : l.set k v = l := by
  rw [xorAll_set l h, BitVec.xor_assoc] at hxor
  have hv : l[k] ^^^ v = 0#8 := by
    have := congrArg (xorAll l ^^^ ·) hxor
    simpa [← BitVec.xor_assoc] using this
  rw [← BitVec.xor_eq_zero_iff.mp hv, List.set_getElem_self]

/-- Settles O45: the XOR over the 25 bytes is 0 for the valid frame, and another value when one byte is another. -/
theorem oneCorruptedByteDetected : Obligations.OneCorruptedByteDetected := by
  intro s tp tp' esc esc' ticks ticks' ck ck' v k hcnt hck _ hk hset hne
  have hbad : ck' ≠ xorAll (coveredBytes tp' esc' ticks') := by
    intro hck'
    have hxor := (xorAll_telemetryBytes tp esc ticks ck).mpr hck
    have hxor' := (xorAll_telemetryBytes tp' esc' ticks' ck').mpr hck'
    rw [hset] at hne hxor'
    refine hne (set_eq_of_xorAll_eq ?_ (hxor'.trans hxor.symm))
    rw [telemetryBytes_length]
    omega
  have hmismatch := checksumMismatchSurfaced (s.atChecksum tp' esc' ticks') ck' rfl hbad
  rw [exec_ingest] at hmismatch
  refine ⟨_, congrArg Host.Outcome.next (Block.byteSteps_telemetryBytes hcnt tp' esc' ticks' ck'), ?_⟩
  rw [Host.Outcome.next.inj hmismatch]
  exact ⟨rfl, rfl, rfl⟩

/-! ### Frame rows and arrays as runs of bytes (R41, R135) -/

/-- Bytes given one at a time reach the state of their run, but for what was delivered last. -/
theorem run_bytes (bs : List Byte) (s : State) (rest : List Input) :
    ∃ o, Sys2Proof.core.run bs.length (s.withInput (bs.map Input.byte ++ rest)) =
      .next ((Block.byteSteps configured bs (s.withInput rest)).withOut o) := by
  induction bs generalizing s with
  | nil => exact ⟨s.out, rfl⟩
  | cons b bs ih =>
    obtain ⟨o, ho⟩ := ih (Block.byteStep configured b s)
    refine ⟨o, ?_⟩
    have hstep := step_byte (s := s.withInput ((b :: bs).map Input.byte ++ rest)) (rest := bs.map Input.byte ++ rest)
      rfl
    rw [Block.State.withInput_withInput, Block.byteStep_withInput] at hstep
    refine ((run_succ hstep).trans ho).trans ?_
    rw [Block.byteSteps_cons, Block.byteStep_withInput]
    rfl

/-- A frame row is the run of its bytes (R85, R91, R92). -/
theorem exec_frame {tp : Bool} {esc : EscId} {ticks : Ticks} {ck h l : Byte} {r : Bool} {i : Instr}
    (hi : i ∈ ([.telemetry tp esc ticks ck, .response r, .framingError h l] : List Instr)) {bs : List Byte}
    (hbs : encode i = some bs) (s : State) : exec i s = .next (Block.byteSteps configured bs s) := by
  simp only [List.mem_cons, List.not_mem_nil, or_false] at hi
  rcases hi with rfl | rfl | rfl <;> cases hbs <;> rfl

/-- Settles O43: the frame row and the bytes one by one reach the same run of `BYTE` steps. -/
theorem frameRowsRunTheirBytes : Obligations.FrameRowsRunTheirBytes := by
  intro s tp esc ticks ck h l r i hi bs hbs
  obtain ⟨o, ho⟩ := run_bytes bs s s.input
  exact ⟨_, _, exec_frame hi hbs s, ho, rfl, Block.byteSteps_out_length _ _ _⟩

/-- An array that is not empty asks for an operation (R41). -/
theorem exists_decodeArray {bs : List Byte} (h : bs ≠ []) : ∃ r, decodeArray bs = some r := by
  obtain ⟨b, bs, rfl⟩ := List.exists_cons_of_ne_nil h
  rcases hd : decode (b :: bs) with e | r
  · exact ⟨(.ingest b, bs), by simp only [decodeArray, hd]⟩
  · exact ⟨r, decodeArray_of_decode hd⟩

/-- What the head of an array asks for runs the bytes that it takes, at least one. -/
theorem decodeArray_runs_bytes {bs rest : List Byte} {i : Instr} (h : decodeArray bs = some (i, rest)) :
    ∃ es, es ≠ [] ∧ bs = es ++ rest ∧ ∀ s, exec i s = .next (Block.byteSteps configured es s) := by
  cases bs with
  | nil => cases h
  | cons b bs =>
    rcases hd : decode (b :: bs) with e | ⟨j, tail⟩
    · simp only [decodeArray, hd] at h
      cases h
      exact ⟨[b], by simp, rfl, fun s => congrArg Host.Outcome.next (Block.byteSteps_singleton configured b s).symm⟩
    · cases (decodeArray_of_decode hd).symm.trans h
      obtain ⟨-, es, hes, hsplit⟩ := decodedFramesEncodeBack _ _ _ hd
      rcases decode_cases hd with ⟨_, _, _, _, rfl⟩ | ⟨_, rfl⟩ | ⟨_, _, rfl⟩ <;> cases hes <;>
        exact ⟨_, List.cons_ne_nil _ _, hsplit, fun _ => rfl⟩

/-- An array is consumed in at most as many steps as it has bytes, and reaches the state of the run of its bytes, but for
what was delivered last. -/
theorem exists_run_array {bs : List Byte} (hne : bs ≠ []) (s : State) (rest : List Input) :
    ∃ k o, k ≤ bs.length ∧ Sys2Proof.core.run k (s.withInput (.bytes bs :: rest)) =
      .next ((Block.byteSteps configured bs (s.withInput rest)).withOut o) := by
  induction hn : bs.length using Nat.strong_induction_on generalizing bs s with
  | _ n ih =>
    subst hn
    obtain ⟨⟨i, tail⟩, hd⟩ := exists_decodeArray hne
    obtain ⟨es, hes, rfl, hexec⟩ := decodeArray_runs_bytes hd
    have hpos : 0 < es.length := List.length_pos_iff.mpr hes
    have hstep := step_of_decodeInput (s := s.withInput (.bytes (es ++ tail) :: rest)) rfl hd
    rw [hexec, Block.State.withInput_withInput, Block.byteSteps_withInput] at hstep
    rw [List.length_append, Block.byteSteps_append, Block.byteSteps_withInput]
    by_cases htail : tail = []
    · subst htail
      exact ⟨1, _, by omega, run_succ hstep⟩
    · rw [if_neg htail] at hstep
      obtain ⟨k, o, hk, hrun⟩ := ih tail.length (by simp; omega) htail (Block.byteSteps configured es s) rfl
      exact ⟨k + 1, o, by omega, (run_succ hstep).trans hrun⟩

/-- Settles O44: the array's steps and the bytes' steps reach the same run of `BYTE` steps. -/
theorem arraySameAsItsBytes : Obligations.ArraySameAsItsBytes := by
  intro s bs rest hne
  obtain ⟨k, o, hk, hrun⟩ := exists_run_array hne s rest
  obtain ⟨o', hrun'⟩ := run_bytes bs s rest
  exact ⟨k, _, _, hk, hrun, Block.byteSteps_input configured bs (s.withInput rest), hrun', rfl⟩

end Sys2Proof.Machine
